-- ==== Sys2Proof/Word.lean ====
section
/-! DEFINITION. The word types of the block (spec/00_scope.md R5, R8, R10): a register is 64 bits,
a CRC-wide quantity 128 bits, memory is bytes. -/

namespace Sys2Proof

/-- One 64-bit register (R5: W = 64; R20). -/
abbrev Word := BitVec 64

/-- A 128-bit quantity, the LO and HI registers joined (R5: WMAX = 128; R20, R73). -/
abbrev Wide := BitVec 128

/-- One byte of memory (R70). -/
abbrev Byte := BitVec 8

end Sys2Proof
end

