-- ==== Sys2Proof/Syntax.lean ====
section
/-! DEFINITION. The commands of the block (spec/30_encoding.md R100 to R107): one constructor per row of
spec/opcode_table.json, and the fields of the one command format. -/

namespace Sys2Proof

/-- A legal command. Operands are registers of the snapshot (R104), so the only field a command
carries is E, "no data", on the three buffer commands (R101). -/
inductive Instr where
  /-- 0x00 NOP (R130). -/
  | nop
  /-- 0x01 CANON (R131). -/
  | canon
  /-- 0x02 BUILD_BYTE (R182). -/
  | buildByte
  /-- 0x03 BUILD_WORD (R194). -/
  | buildWord
  /-- 0x04 BUILD_COMB (R221). -/
  | buildComb
  /-- 0x10 CRC_BIT (R166); `noData` is E. -/
  | crcBit (noData : Bool)
  /-- 0x11 CRC_BYTE (R186); `noData` is E. -/
  | crcByte (noData : Bool)
  /-- 0x12 CRC_WORD (R197); `noData` is E. -/
  | crcWord (noData : Bool)
  /-- 0x13 CRC_REM (R168). -/
  | crcRem
  /-- 0x20 REVERSE (R152). -/
  | reverse
  /-- 0x21 MULMOD (R214). -/
  | mulmod
  /-- 0x22 X8N (R225). -/
  | x8n
  /-- 0x23 ZEROS (R226). -/
  | zeros
  /-- 0x24 COMBINE (R228). -/
  | combine
  /-- 0x30 TBLRD (R241). -/
  | tblrd
deriving DecidableEq, Repr

/-- The three fields of a command word (R100), legal or not. -/
structure CommandFields where
  /-- OP, bits 7:0. -/
  op : BitVec 8
  /-- E, bit 8. -/
  e : Bool
  /-- RSVD, bits 63:9. -/
  rsvd : BitVec 55
deriving DecidableEq, Repr

/-- The opcode of a command (R103). -/
def Instr.opcode : Instr → BitVec 8
  | .nop => 0x00
  | .canon => 0x01
  | .buildByte => 0x02
  | .buildWord => 0x03
  | .buildComb => 0x04
  | .crcBit _ => 0x10
  | .crcByte _ => 0x11
  | .crcWord _ => 0x12
  | .crcRem => 0x13
  | .reverse => 0x20
  | .mulmod => 0x21
  | .x8n => 0x22
  | .zeros => 0x23
  | .combine => 0x24
  | .tblrd => 0x30

/-- The E flag of a command (R101): 0 for every command but the three buffer commands. -/
def Instr.noData : Instr → Bool
  | .crcBit e => e
  | .crcByte e => e
  | .crcWord e => e
  | .nop => false
  | .canon => false
  | .buildByte => false
  | .buildWord => false
  | .buildComb => false
  | .crcRem => false
  | .reverse => false
  | .mulmod => false
  | .x8n => false
  | .zeros => false
  | .combine => false
  | .tblrd => false

/-- The fields of a command's word (R100 to R103): RSVD is 0. -/
def Instr.fields (i : Instr) : CommandFields :=
  { op := i.opcode, e := i.noData, rsvd := 0 }

end Sys2Proof
end

