-- ==== Sys2Proof/WellFormed.lean ====
section
/-! DEFINITION. When a command word's fields are a legal command (spec/30_encoding.md R101 to R106): one check for
each way R105 lets a word be illegal. -/

namespace Sys2Proof

/-- RSVD must be 0 (R102, R105 (a)). -/
def CommandFields.rsvdIsZero (f : CommandFields) : Bool := f.rsvd == 0

/-- The OP values of R103's map, in its order. -/
def assignedOpcodes : List (BitVec 8) :=
  [0x00, 0x01, 0x02, 0x03, 0x04, 0x10, 0x11, 0x12, 0x13, 0x20, 0x21, 0x22, 0x23, 0x24, 0x30]

/-- The OP values that may carry E = 1 (R101). -/
def noDataOpcodes : List (BitVec 8) := [0x10, 0x11, 0x12]

/-- OP must be in R103's map (R105 (b)). -/
def CommandFields.opIsAssigned (f : CommandFields) : Bool := assignedOpcodes.contains f.op

/-- E = 1 only with OP 0x10, 0x11 or 0x12 (R101, R105 (c)). -/
def CommandFields.eIsAllowed (f : CommandFields) : Bool := !f.e || noDataOpcodes.contains f.op

/-- A legal command word (R105). -/
def CommandFields.wf (f : CommandFields) : Bool :=
  f.rsvdIsZero && f.opIsAssigned && f.eIsAllowed

/-- A well-formed command: its word's fields are legal. `Instr` carries only what a row defines, so
every term passes (Laws/Encoding.lean); the checks bite on `CommandFields`. -/
def Instr.wf (i : Instr) : Bool := i.fields.wf

end Sys2Proof
end

