-- ==== Sys2Proof/Decode.lean ====
section
/-! DEFINITION. Decoding of a command word, total, refusing by name (spec/30_encoding.md R100 to R107), and the
encoder after it. -/

namespace Sys2Proof

/-- Why a word is illegal (R105 (a), (b), (c)). -/
inductive DecodeError where
  /-- RSVD is not 0. -/
  | reservedBits
  /-- OP is not in the map. -/
  | unassignedOpcode
  /-- E = 1 on a command that has no E form. -/
  | noDataNotAllowed
deriving DecidableEq, Repr

/-- The fields of a 64-bit command word (R100). -/
def commandFields (w : Word) : CommandFields :=
  { op := w.extractLsb' 0 8, e := w.getLsbD 8, rsvd := w.extractLsb' 9 55 }

/-- The command of an opcode (R103), given its E flag. -/
def commandOfOpcode (op : BitVec 8) (e : Bool) : Option Instr :=
  match op.toNat with
  | 0x00 => some .nop
  | 0x01 => some .canon
  | 0x02 => some .buildByte
  | 0x03 => some .buildWord
  | 0x04 => some .buildComb
  | 0x10 => some (.crcBit e)
  | 0x11 => some (.crcByte e)
  | 0x12 => some (.crcWord e)
  | 0x13 => some .crcRem
  | 0x20 => some .reverse
  | 0x21 => some .mulmod
  | 0x22 => some .x8n
  | 0x23 => some .zeros
  | 0x24 => some .combine
  | 0x30 => some .tblrd
  | _ => none

/-- Decoding of a word's fields (R105). -/
def decodeFields (f : CommandFields) : Except DecodeError Instr :=
  if f.rsvdIsZero then
    match commandOfOpcode f.op f.e with
    | none => .error .unassignedOpcode
    | some i => if f.eIsAllowed then .ok i else .error .noDataNotAllowed
  else .error .reservedBits

/-- Decoding of a command word (R100, R105). -/
def decode (w : Word) : Except DecodeError Instr := decodeFields (commandFields w)

/-- The word whose fields are given (R100): RSVD above E above OP. -/
def CommandFields.toWord (f : CommandFields) : Word :=
  BitVec.ofNat 64 (f.op.toNat + 256 * f.e.toNat + 512 * f.rsvd.toNat)

/-- The command word of a command (R100, R103, R107). -/
def encode (i : Instr) : Word := i.fields.toWord

/-- The word that the bits `w` of an instruction of `nbits` bits stand for: bit i of the word is bit i of
the register CMD (R73), every bit from `nbits` on is 0; none when a set bit lies beyond the one format (R100). -/
def tableWord (nbits w : Nat) : Option Word :=
  if w % 2 ^ nbits < 2 ^ 64 then some (BitVec.ofNat 64 (w % 2 ^ nbits)) else none

/-- What the decoder reads from an instruction whose bits are `w`, numbered as spec/opcode_table.json numbers them. -/
def decodeTableWord (nbits w : Nat) : Option Instr :=
  match tableWord nbits w with
  | none => none
  | some v =>
    match decode v with
    | .ok i => some i
    | .error _ => none

end Sys2Proof
end

