-- ==== Sys2Proof/Machine/Arith.lean ====
section
/-! DEFINITION. The arithmetic of the rules' pseudocode: naturals with explicit masks (spec/00_scope.md R10), bit
reversal (spec/41_bit_reversal.md R150), byte swap (spec/43_table_engines.md R191). -/

namespace Sys2Proof.Machine

/-- `ones(n) = 2^n − 1` (R10). -/
def ones (n : Nat) : Nat := 2 ^ n - 1

/-- `bit(v, i)` (R10). -/
def bit (v i : Nat) : Bool := v.testBit i

/-- `v[lo + n − 1 : lo]` (R10): the field of `n` bits from bit `lo` up. -/
def field (v lo n : Nat) : Nat := (v >>> lo) % 2 ^ n

/-- `reverse(x, n)` (R150): bit i of the result is bit n − 1 − i of x. Each bit of x, from bit 0 up, is
shifted in at the low end. -/
def bitReverse (x : Nat) : Nat → Nat
  | 0 => 0
  | n + 1 => 2 * bitReverse x n + (bit x n).toNat

/-- `swap_B(v)` (R191): the B bytes of v in the opposite order. The low bytes of v are shifted in at the low end. -/
def byteSwap (v : Nat) : Nat → Nat
  | 0 => 0
  | b + 1 => 256 * byteSwap v b + field v (8 * b) 8

/-- `f` applied `n` times to `x`. -/
def applyTimes (f : Nat → Nat) : Nat → Nat → Nat
  | 0, x => x
  | n + 1, x => applyTimes f n (f x)

/-- Bits 63:0 of a 128-bit quantity (R20, R73). -/
def lowHalf (v : Wide) : Word := v.extractLsb' 0 64

/-- Bits 127:64 of a 128-bit quantity (R20, R73). -/
def highHalf (v : Wide) : Word := v.extractLsb' 64 64

/-- `v` with bits 63:0 replaced (R20). -/
def withLow (v : Wide) (w : Word) : Wide := highHalf v ++ w

/-- `v` with bits 127:64 replaced (R20). -/
def withHigh (v : Wide) (w : Word) : Wide := w ++ lowHalf v

end Sys2Proof.Machine
end

