-- ==== Sys2Proof/Config.lean ====
section
/-! DEFINITION. What is fixed for this hardware (spec/00_scope.md R5 to R8, spec/10_state.md R22, R23), and the
free values: what the spec leaves open, as constants without a body, of which nothing can be evaluated or proved. -/

namespace Sys2Proof.Config

/-- W, the host word width (R5). -/
def hostWidth : Nat := 64

/-- WMAX, the widest CRC (R5). -/
def maxWidth : Nat := 128

/-- COMB_N, the entries of table_comb (R6). -/
def combEntries : Nat := 131

/-- ABITS, the address width of the memory read port (R8). -/
def addressBits : Nat := 64

/-- ID, hard-wired (R22, R280). -/
def idValue : Word := 0x0000000143524350

/-- PARAM, hard-wired (R23, R280). -/
def paramValue : Word := 0x0000004003838040

/-- DESIGN CHOICE (log 4), a free value: the byte at an address that nothing has written. -/
opaque unwrittenByte (addr : Nat) : Byte

/-- A free value (U1, U2; log 5): entry `k` of table_byte while its contents are unspecified. -/
opaque freeByteEntry (draw k : Nat) : Word

/-- A free value (U1, U2, U4; log 5): entry `k` of row `n` of table_word while unspecified. -/
opaque freeWordEntry (draw n k : Nat) : Word

/-- A free value (U1, U2, U3; log 5): entry `k` of table_comb while unspecified. -/
opaque freeCombEntry (draw k : Nat) : Word

/-- A free value (U5, R83; log 6): which of the values a location held during the command the read of it takes. -/
opaque raceChoice (draw addr : Nat) : Nat

end Sys2Proof.Config
end

