-- ==== Sys2Proof/Machine/State.lean ====
section
/-! DEFINITION. The state of the block and of the agents around it, as plain data (spec/10_state.md R20 to R45,
spec/20_memory.md R70 to R84, spec/70_reset_and_hazards.md R280, R291), and the state after reset. -/

namespace Sys2Proof.Machine

/-- STATUS.ERRCODE (R251): the ten codes that are ever written. -/
inductive ErrCode where
  /-- 0, success. -/
  | ok
  /-- 1, an illegal command word (R105). -/
  | illegal
  /-- 2, the command needs a canonical model and MVALID = 0. -/
  | noModel
  /-- 3, CANON's CFG values are not a usable model (R132). -/
  | model
  /-- 4, M_WIDTH is too large for the command. -/
  | width
  /-- 5, a table the command needs is not valid. -/
  | noTable
  /-- 6, an operand is out of its range. -/
  | arg
  /-- 7, ADDR + LEN > 2^64 (R78). -/
  | addr
  /-- 8, a memory read returned a bus error (R258). -/
  | bus
  /-- 9, the power walk passed the end of table_comb (R222, R259). -/
  | combRange
deriving DecidableEq, Repr

/-- The host-written registers that acceptance copies into the snapshot (R80, R44): the operands (R31, R32),
CTRL.LITTLE and CTRL.W8 (R24) and the configuration registers (R27 to R29). -/
structure HostRegs where
  /-- OPA. -/
  opa : Wide
  /-- OPB. -/
  opb : Wide
  /-- ADDR. -/
  addr : Word
  /-- LEN. -/
  len : Word
  /-- AUX. -/
  aux : Word
  /-- CTRL bit 1. -/
  little : Bool
  /-- CTRL bit 2. -/
  w8 : Bool
  /-- CFG_WIDTH bits 7:0. -/
  cfgWidth : BitVec 8
  /-- CFG_FLAGS bit 0. -/
  refin : Bool
  /-- CFG_FLAGS bit 1. -/
  refout : Bool
  /-- CFG_POLY. -/
  cfgPoly : Wide
  /-- CFG_INIT. -/
  cfgInit : Wide
  /-- CFG_XOROUT. -/
  cfgXorout : Wide
deriving DecidableEq, Repr

/-- The canonical model: M_CFG, M_POLY, M_INIT, M_XOROUT (R35, R36). -/
structure Model where
  /-- M_CFG bits 7:0, M_WIDTH. -/
  width : BitVec 8
  /-- M_CFG bit 8, M_REF. -/
  ref : Bool
  /-- M_CFG bit 9, M_REV. -/
  rev : Bool
  /-- M_POLY. -/
  poly : Wide
  /-- M_INIT. -/
  init : Wide
  /-- M_XOROUT. -/
  xorout : Wide
deriving DecidableEq, Repr

/-- The stored fields of STATUS (R25). BUSY is "a command is in flight" (R44) and ERR is ERRCODE ≠ 0,
so neither is stored again. -/
structure Status where
  /-- Bit 1, DONE. -/
  done : Bool
  /-- Bit 3, OVR. -/
  ovr : Bool
  /-- Bits 15:8, ERRCODE. -/
  err : ErrCode
  /-- Bit 16, MVALID. -/
  mvalid : Bool
  /-- Bit 17, BVALID. -/
  bvalid : Bool
  /-- Bit 18, WVALID. -/
  wvalid : Bool
  /-- Bit 19, CVALID. -/
  cvalid : Bool
deriving DecidableEq, Repr

/-- The command snapshot (R44, R80): the accepted word and the registers as they were then. -/
structure Snapshot where
  /-- The accepted command word. -/
  word : Word
  /-- The copied registers. -/
  regs : HostRegs
deriving DecidableEq, Repr

/-- Reads of `size` bytes that start at `first` .. `last` (log 3). -/
structure ReadRange where
  /-- The number of bytes of the read. -/
  size : Nat
  /-- The lowest start address. -/
  first : Nat
  /-- The highest start address. -/
  last : Nat
deriving DecidableEq, Repr

/-- Bytes `first` .. `last` of memory. -/
structure AddrRange where
  /-- The lowest address. -/
  first : Nat
  /-- The highest address. -/
  last : Nat
deriving DecidableEq, Repr

/-- What the platform fixes (R9, R79), as data (log 3). -/
structure Platform where
  /-- REG_BASE. -/
  regBase : Nat
  /-- The reads for which MemAdmit is false. -/
  refused : List ReadRange
  /-- Memory whose reads have side effects (R79, U12; log 7). -/
  device : List AddrRange
deriving DecidableEq, Repr

/-- An event of the total order of R291. An acceptance is the CMD write event itself (R80). -/
inductive Event where
  /-- A host write of `size` bytes at host address `addr` (R71). -/
  | hostWrite (addr size : Nat) (value : Word)
  /-- A host read of `size` bytes at host address `addr` (R71). -/
  | hostRead (addr size : Nat)
  /-- The completion of the command in flight (R255). -/
  | complete
  /-- Some agent writes one byte of system memory (R81, R83). -/
  | memWrite (addr : Word) (value : Byte)
  /-- The platform asserts reset (R280, R281). -/
  | reset
deriving DecidableEq, Repr

/-- What the register window answered to the last host access (R71; log 11). -/
inductive BusResponse where
  /-- There was no access yet, or it was not to the window. -/
  | none
  /-- A write that was performed. -/
  | written
  /-- A read that was performed, and its value. -/
  | data (value : Word)
  /-- The error response of R71. -/
  | error
deriving DecidableEq, Repr

/-- The state of the block, of memory and of the platform around it. -/
structure State where
  /-- The host-written registers that a snapshot copies. -/
  regs : HostRegs
  /-- CTRL bit 0, IE (R24). -/
  ie : Bool
  /-- STATUS, but for BUSY and ERR (R25). -/
  status : Status
  /-- CMD's readback: the last accepted word (R26). -/
  cmd : Word
  /-- RESULT (R33). -/
  result : Wide
  /-- ERRADDR (R34). -/
  errAddr : Word
  /-- The canonical model (R35, R36). -/
  model : Model
  /-- COMB_INFO bits 7:0, CYCLE (R37). -/
  combCycle : BitVec 8
  /-- COMB_INFO bits 15:8, BACK (R37). -/
  combBack : BitVec 8
  /-- WTBL_INFO bit 0, LITTLE (R38). -/
  wtblLittle : Bool
  /-- WTBL_INFO bit 1, W8 (R38). -/
  wtblW8 : Bool
  /-- table_byte, 256 entries (R40). -/
  byteTable : List Word
  /-- table_word, 8 rows of 256 entries (R41). -/
  wordTable : List (List Word)
  /-- table_comb, 131 entries (R42). -/
  combTable : List Word
  /-- The command snapshot, while a command is in flight (R44); STATUS.BUSY is that there is one. -/
  inflight : Option Snapshot
  /-- System memory (R70): the bytes that have been written, by rising address. -/
  mem : List Host.Cell
  /-- Values that locations held since the acceptance of the command in flight and were overwritten since (R83). -/
  held : List Host.Cell
  /-- The events to come, in the platform's order (R291; log 1). -/
  schedule : List Event
  /-- The answer to the last host access (R71; log 11). -/
  response : BusResponse
  /-- The platform's parameters (R9; log 3). -/
  platform : Platform
  /-- The model's own counter for free values (log 5). -/
  draws : Nat
deriving DecidableEq, Repr

/-- No step of this machine faults: the block has no traps (R250), and every error is the completion of a
command. The type has no constructor, so this is a fact of the type. -/
inductive Fault
deriving DecidableEq, Repr

/-- Why a step has no meaning. -/
inductive Refusal where
  /-- Raised by exec for a command that is not modelled yet; safe. No arm uses it. -/
  | notModelled (mnemonic : String)
  /-- Raised by CRC_BIT, CRC_BYTE and CRC_WORD when they read memory that the platform has marked as having
  read side effects: U12 gives it no meaning ("refuse", R79); safe. -/
  | readSideEffect
deriving DecidableEq, Repr

/-- 256 free values for table_byte (U1, U2; log 5). -/
def freeByteTable (draw : Nat) : List Word := (List.range 256).map (Config.freeByteEntry draw)

/-- 256 free values for row `n` of table_word (U1, U2, U4; log 5). -/
def freeWordRow (draw n : Nat) : List Word := (List.range 256).map (Config.freeWordEntry draw n)

/-- Free values for the 8 rows of table_word (U1, U2; log 5). -/
def freeWordTable (draw : Nat) : List (List Word) := (List.range 8).map (freeWordRow draw)

/-- 131 free values for table_comb (U1, U2; log 5). -/
def freeCombTable (draw : Nat) : List Word :=
  (List.range Config.combEntries).map (Config.freeCombEntry draw)

/-- The machine right after reset (R280): every register 0, no model, the tables invalid with unspecified
contents (log 5), no command in flight. Memory lists nothing; the platform's parameters and the schedule are
those of log 1 and log 3. -/
def State.reset : State where
  regs :=
    { opa := 0, opb := 0, addr := 0, len := 0, aux := 0, little := false, w8 := false, cfgWidth := 0,
      refin := false, refout := false, cfgPoly := 0, cfgInit := 0, cfgXorout := 0 }
  ie := false
  status :=
    { done := false, ovr := false, err := .ok, mvalid := false, bvalid := false, wvalid := false, cvalid := false }
  cmd := 0
  result := 0
  errAddr := 0
  model := { width := 0, ref := false, rev := false, poly := 0, init := 0, xorout := 0 }
  combCycle := 0
  combBack := 0
  wtblLittle := false
  wtblW8 := false
  byteTable := freeByteTable 0
  wordTable := freeWordTable 0
  combTable := freeCombTable 0
  inflight := none
  mem := []
  held := []
  schedule := []
  response := .none
  platform := { regBase := 0, refused := [], device := [] }
  draws := 1

end Sys2Proof.Machine
end

