-- ==== Sys2Proof/Machine/Ops.lean ====
section
/-! DEFINITION. The operations that the meanings share: system memory and the read port (spec/20_memory.md R70 to
R83), the table memories (spec/10_state.md R39 to R42), acceptance (R80), completion with or without an error
(spec/60_exceptions.md R251 to R258) and reset (spec/70_reset_and_hazards.md R280, R281). -/

namespace Sys2Proof.Machine

/-- What a command or a step answers. -/
abbrev StepResult := Host.Outcome State Fault Refusal

/-! ## System memory -/

/-- The byte listed at `a`, if one is. -/
def memLookup : List Host.Cell → Nat → Option Byte
  | [], _ => none
  | c :: m, a => if c.1 = a then some c.2 else memLookup m a

/-- What an address reads as: the byte listed there, else a free value of that address (log 4). -/
def memGet (m : List Host.Cell) (a : Nat) : Byte := (memLookup m a).getD (Config.unwrittenByte a)

/-- `m` with byte `b` at address `a`, in rising order of addresses. -/
def memSet : List Host.Cell → Nat → Byte → List Host.Cell
  | [], a, b => [(a, b)]
  | c :: m, a, b =>
    if a < c.1 then (a, b) :: c :: m
    else if a = c.1 then (a, b) :: m
    else c :: memSet m a b

/-- The canonical form of memory: addresses strictly rising, inside the 64-bit space (R70). An unlisted address
has no value in the list, so no listed byte can equal it (log 4). -/
abbrev Memory.wf (m : List Host.Cell) : Prop :=
  m.Pairwise (fun x y => x.1 < y.1) ∧ ∀ c ∈ m, c.1 < 2 ^ 64

/-! ## The memory read port -/

/-- MemAdmit(addr, n) (R9, R74): the platform answers a read of `n` bytes at `a` (log 3). -/
def Platform.admits (p : Platform) (a n : Nat) : Bool :=
  !p.refused.any (fun r => r.size == n && decide (r.first ≤ a) && decide (a ≤ r.last))

/-- A read of `n` bytes at `a` touches memory with read side effects (R79, U12; log 7). -/
def Platform.touchesDevice (p : Platform) (a n : Nat) : Bool :=
  p.device.any (fun r => decide (r.first < a + n) && decide (a ≤ r.last))

/-- The values that address `a` held since the acceptance and holds no more (R83). -/
def heldAt (held : List Host.Cell) (a : Nat) : List Byte :=
  (held.filter (fun c => c.1 == a)).map Prod.snd

/-- The byte the engine uses at `a` (R83): the byte there, or, where it was written while the command was
in flight, a free choice among the values the location held (log 6). -/
def readByte (s : State) (a : Nat) : Byte :=
  match heldAt s.held a with
  | [] => memGet s.mem a
  | v :: vs =>
    (memGet s.mem a :: v :: vs).getD (Config.raceChoice s.draws a % (vs.length + 2)) (memGet s.mem a)

/-- The `n` bytes from `a` up, in ascending address order (R74). -/
def readBytes (s : State) (a n : Nat) : List Byte := (List.range n).map (fun i => readByte s (a + i))

/-- What a run of engine reads comes to: a value, a bus error at an address (R258), or a read of memory
that has no meaning here (U12). -/
inductive Run (α : Type) where
  /-- Every read was answered. -/
  | value (v : α)
  /-- The read that starts at `addr` returned a bus error. -/
  | busError (addr : Nat)
  /-- A read touched memory with read side effects. -/
  | device
deriving DecidableEq, Repr

/-- The run `r`, and then `k` on its value: a failing read ends it, and no later read is made (R258). -/
def Run.bind {α β : Type} : Run α → (α → Run β) → Run β
  | .value v, k => k v
  | .busError a, _ => .busError a
  | .device, _ => .device

/-- `MemRead(addr, n)` (R74). -/
def memRead (s : State) (a n : Nat) : Run (List Byte) :=
  if s.platform.admits a n then
    if s.platform.touchesDevice a n then .device else .value (readBytes s a n)
  else .busError a

/-! ## The table memories -/

/-- `table_byte[k]`, or `table_comb[k]`, or entry `k` of a row of table_word. Every reader stays inside the
lengths that the invariant of Safety.lean states; beyond them the model reads 0 (log 14). -/
def entry (t : List Word) (k : Nat) : Nat := (t.getD k 0).toNat

/-- `table_word[n][k]` (R41). -/
def wordEntry (t : List (List Word)) (n k : Nat) : Nat := entry (t.getD n []) k

/-! ## Acceptance and completion -/

/-- STATUS.BUSY (R25, R44): a command is in flight. -/
def State.busy (s : State) : Bool := s.inflight.isSome

/-- Acceptance of the word `w` (R80, R26): snapshot, BUSY ← 1, DONE ← 0, CMD ← w. -/
def State.accept (s : State) (w : Word) : State :=
  { s with
    cmd := w
    inflight := some { word := w, regs := s.regs }
    held := []
    status := { s.status with done := false } }

/-- The registers a command computes from (R80): the snapshot's. With no command in flight, which no step
runs, they are the registers that an acceptance would copy (log 8). -/
def State.commandRegs (s : State) : HostRegs :=
  match s.inflight with
  | some c => c.regs
  | none => s.regs

/-- Completion with ERRCODE `code` (R255): ERRCODE, ERR, DONE ← 1, BUSY ← 0. It drops the snapshot and the
record of races, and moves the free values on. -/
def State.complete (s : State) (code : ErrCode) : State :=
  { s with
    status := { s.status with err := code, done := true }
    inflight := none
    held := []
    draws := s.draws + 1 }

/-- Successful completion of a command that has written its state. -/
def finish (s : State) : StepResult := .next (s.complete .ok)

/-- Successful completion with RESULT ← zext_128(v) (R33, R255). -/
def finishValue (s : State) (v : Nat) : StepResult :=
  finish { s with result := BitVec.ofNat 128 v }

/-- `raise Error(code)` (R11, R252): the one way a command ends in an error other than BUS. The block has
no traps (R250): the error is reported at completion and nothing else changes. -/
def raiseError (s : State) (code : ErrCode) : StepResult := .next (s.complete code)

/-- The command ends with BUS (R258, R34): ERRADDR ← the start address of the failing read. -/
def raiseBus (s : State) (a : Nat) : StepResult :=
  raiseError { s with errAddr := BitVec.ofNat 64 a } .bus

/-- The end of a command that reads memory: its value, BUS, or the refusal of U12. -/
def finishRun (s : State) : Run Nat → StepResult
  | .value v => finishValue s v
  | .busError a => raiseBus s a
  | .device => .refused .readSideEffect

/-! ## Checks, in the order the pseudocode gives them (R253) -/

/-- `if MVALID = 0: raise Error(NOMODEL)`. -/
def needModel (s : State) (k : StepResult) : StepResult :=
  if s.status.mvalid then k else raiseError s .noModel

/-- `if M_WIDTH > limit: raise Error(WIDTH)`. -/
def needWidth (s : State) (limit : Nat) (k : StepResult) : StepResult :=
  if s.model.width.toNat ≤ limit then k else raiseError s .width

/-- `if <flag> = 0: raise Error(NOTABLE)`. -/
def needTable (s : State) (flag : Bool) (k : StepResult) : StepResult :=
  if flag then k else raiseError s .noTable

/-- `if not <ok>: raise Error(ARG)`. -/
def needArg (s : State) (ok : Bool) (k : StepResult) : StepResult :=
  if ok then k else raiseError s .arg

/-- `if ADDR + LEN > 2^64: raise Error(ADDR)` (R78), computed without wrap-around. -/
def needBuffer (s : State) (k : StepResult) : StepResult :=
  if s.commandRegs.addr.toNat + s.commandRegs.len.toNat ≤ 2 ^ 64 then k else raiseError s .addr

/-- The value of a walk that may pass the end of table_comb: COMBRANGE where it does (R222, R259). -/
def finishWalk (s : State) : Option Nat → StepResult
  | some v => finishValue s v
  | none => raiseError s .combRange

/-! ## Other agents' events -/

/-- Some agent writes `b` at `a`. While a command is in flight the value that was there is kept among those
that a read of the command may take (R83). -/
def memoryWrite (s : State) (a : Word) (b : Byte) : State :=
  { s with
    mem := memSet s.mem a.toNat b
    held := if s.busy then (a.toNat, memGet s.mem a.toNat) :: s.held else s.held }

/-- Reset (R280, R281): the reset state, abandoning any command. Memory, the platform, the events to come and
the last bus answer are not the block's and stay (log 12); the tables' contents are drawn anew (log 5). -/
def resetBlock (s : State) : State :=
  { State.reset with
    byteTable := freeByteTable s.draws
    wordTable := freeWordTable s.draws
    combTable := freeCombTable s.draws
    mem := s.mem
    schedule := s.schedule
    response := s.response
    platform := s.platform
    draws := s.draws + 1 }

end Sys2Proof.Machine
end

