-- ==== Sys2Proof/Machine/Register.lean ====
section
/-! DEFINITION. The shift register and the pipeline around it (spec/42_bit_serial.md R160 to R164). A register is a
natural below 2^w; the model's own M_* registers give w, poly, xorout, ref and rev. -/

namespace Sys2Proof.Machine

/-- `w = M_WIDTH` (R35). -/
def Model.w (m : Model) : Nat := m.width.toNat

/-- One reflected step (R160). -/
def stepRef (m : Model) (r : Nat) (d : Bool) : Nat :=
  if (bit r 0 ^^ d) = true then (r >>> 1) ^^^ m.poly.toNat else r >>> 1

/-- One normal step (R161). -/
def stepNorm (m : Model) (r : Nat) (d : Bool) : Nat :=
  if (bit r (m.w - 1) ^^ d) = true then ((r <<< 1) &&& ones m.w) ^^^ m.poly.toNat
  else (r <<< 1) &&& ones m.w

/-- `step(R, d)` (R161): the step of the model's direction. -/
def stepBit (m : Model) (r : Nat) (d : Bool) : Nat :=
  if m.ref then stepRef m r d else stepNorm m r d

/-- The i-th bit of byte `b` that the model feeds (R162): bit i when reflected, bit 7 − i otherwise. That CRC_REM uses
the same order for a normal model is DEDUCED (R168; log 19). -/
def fedBit (m : Model) (b i : Nat) : Bool := if m.ref then bit b i else bit b (7 - i)

/-- The first `n` bits of byte `b` fed into the register (R162, R168). -/
def feedBits (m : Model) (b : Nat) : Nat → Nat → Nat
  | 0, r => r
  | n + 1, r => stepBit m (feedBits m b n r) (fedBit m b n)

/-- `feed(R, b)` (R162). -/
def feed (m : Model) (r b : Nat) : Nat := feedBits m b 8 r

/-- `pre(c)` (R163): mask first, then xorout, then the reversal of a rev model. -/
def pre (m : Model) (c : Nat) : Nat :=
  if m.rev then bitReverse ((c &&& ones m.w) ^^^ m.xorout.toNat) m.w
  else (c &&& ones m.w) ^^^ m.xorout.toNat

/-- `post(R)` (R164). -/
def post (m : Model) (r : Nat) : Nat :=
  if m.rev then bitReverse r m.w ^^^ m.xorout.toNat else r ^^^ m.xorout.toNat

end Sys2Proof.Machine
end

