-- ==== Sys2Proof/Machine/Operands.lean ====
section
/-! DEFINITION. The operand forms of the commands (spec/30_encoding.md R104), each taken from the snapshot: CRC values,
register-form factors, buffers, small operands, the TBLRD selector (spec/45_table_readout.md R240). -/

namespace Sys2Proof.Machine

/-- OPA as a natural. -/
def opA (s : State) : Nat := s.commandRegs.opa.toNat

/-- OPB as a natural. -/
def opB (s : State) : Nat := s.commandRegs.opb.toNat

/-- ADDR as a natural. -/
def opAddr (s : State) : Nat := s.commandRegs.addr.toNat

/-- LEN as a natural. -/
def opLen (s : State) : Nat := s.commandRegs.len.toNat

/-- AUX as a natural. -/
def opAux (s : State) : Nat := s.commandRegs.aux.toNat

/-- The register that a CRC operand c in OPA stands for, pre(c) (R104, R163). -/
def crcOperand (s : State) : Nat := pre s.model (opA s)

/-- CRC_REM's val, OPB[7:0] (R168). -/
def remValue (s : State) : Nat := field (opB s) 0 8

/-- The word size in bytes that a W8 bit selects (R7, R24, R38). -/
def wordBytes (w8 : Bool) : Nat := if w8 then 8 else 4

/-- TBLRD's K, AUX[7:0] (R240). -/
def selK (aux : Nat) : Nat := field aux 0 8

/-- TBLRD's N, AUX[10:8] (R240). -/
def selN (aux : Nat) : Nat := field aux 8 3

/-- TBLRD's SEL, AUX[17:16] (R240). -/
def selTable (aux : Nat) : Nat := field aux 16 2

/-- A malformed selector (R240). -/
def selMalformed (aux : Nat) : Bool :=
  field aux 11 5 != 0 || aux >>> 18 != 0 || selTable aux == 3 || (selN aux != 0 && selTable aux != 1)

/-- The registers of the buffer, byte by byte from `a` up (R75): `upd` advances the register by one byte,
`n` bytes are read one at a time. -/
def feedBuffer (s : State) (upd : Nat → Nat → Nat) : Nat → Nat → Nat → Run Nat
  | 0, _, q => .value q
  | n + 1, a, q => (memRead s a 1).bind fun bs => feedBuffer s upd n (a + 1) (upd q (bs.getD 0 0).toNat)

end Sys2Proof.Machine
end

