-- ==== Sys2Proof/Machine/BitSerial.lean ====
section
/-! DEFINITION. CRC_BIT and CRC_REM (spec/42_bit_serial.md R166, R168). -/

namespace Sys2Proof.Machine

/-- The bit-serial CRC of the buffer (R166). -/
def bitCrc (s : State) : Run Nat :=
  (feedBuffer s (feed s.model) (opLen s) (opAddr s) (crcOperand s)).bind fun r => .value (post s.model r)

/-- CRC_BIT (R166). -/
def execCrcBit (noData : Bool) (s : State) : StepResult :=
  needModel s <|
    if noData then finishValue s s.model.init.toNat
    else needBuffer s <| finishRun s (bitCrc s)

/-- CRC_REM (R168): AUX bits of OPB[7:0], bit 0 first when reflected, bit 7 first otherwise. DEDUCED (log 19): which
bits of val a normal model uses follows R168's pseudocode against D34 and R168's corner case. -/
def execCrcRem (s : State) : StepResult :=
  needModel s <| needArg s (decide (opAux s ≤ 8)) <|
    finishValue s (post s.model (feedBits s.model (remValue s) (opAux s) (crcOperand s)))

end Sys2Proof.Machine
end

