-- ==== Sys2Proof/Machine/Combine.lean ====
section
/-! DEFINITION. Polynomial arithmetic and the combine engine: MULMOD, BUILD_COMB, X8N, ZEROS, COMBINE
(spec/44_polynomial_combine.md R210 to R231). Values are in the register representation (R12). -/

namespace Sys2Proof.Machine

/-- The polynomial 1 (R210). -/
def polyOne (m : Model) : Nat := if m.ref then 1 <<< (m.w - 1) else 1

/-- Multiplication by x modulo p (R211): one zero-input step. -/
def mulX (m : Model) (b : Nat) : Nat := stepBit m b false

/-- The coefficient of x^i of a (R212): bit w − 1 − i when reflected, bit i otherwise. -/
def coefficient (m : Model) (a i : Nat) : Bool := if m.ref then bit a (m.w - 1 - i) else bit a i

/-- The first `n` rounds of multmodp (R212): the product so far and b·x^n. -/
def mulRounds (m : Model) (a b : Nat) : Nat → Nat × Nat
  | 0 => (0, b)
  | n + 1 =>
    match mulRounds m a b n with
    | (prod, bx) => (if coefficient m a n then prod ^^^ bx else prod, mulX m bx)

/-- `multmodp(a, b)` (R212), all w rounds (D32). -/
def multModP (m : Model) (a b : Nat) : Nat :=
  (mulRounds m (a &&& ones m.w) (b &&& ones m.w) m.w).1

/-- MULMOD (R214). -/
def execMulmod (s : State) : StepResult :=
  needModel s <| needWidth s 64 <| finishValue s (multModP s.model (opA s) (opB s))

/-- The index of the first entry equal to `v`. -/
def indexOf (v : Nat) : List Nat → Option Nat
  | [] => none
  | e :: es => if e = v then some 0 else (indexOf v es).map (· + 1)

/-- Up to `n` further squarings after `es`, whose last entry is `last` (R220): the entries, and the index a
repeat equals. -/
def combFrom (m : Model) : Nat → List Nat → Nat → List Nat × Option Nat
  | 0, es, _ => (es, none)
  | n + 1, es, last =>
    match indexOf (multModP m last last) es with
    | some i => (es, some i)
    | none => combFrom m n (es ++ [multModP m last last]) (multModP m last last)

/-- The combine table's entries and its BACK index (R220). -/
def combSequence (m : Model) : List Nat × Option Nat :=
  combFrom m (Config.combEntries - 1) [mulX m (polyOne m)] (mulX m (polyOne m))

/-- table_comb as built (R220, R221): the entries, then unspecified ones up to COMB_N (U3; log 5). -/
def builtCombTable (entries : List Nat) (draw : Nat) : List Word :=
  (List.range Config.combEntries).map fun k =>
    if k < entries.length then BitVec.ofNat 64 (entries.getD k 0) else Config.freeCombEntry draw k

/-- BUILD_COMB (R221). BACK is 0xFF where no cycle is detected (R37, D53). -/
def execBuildComb (s : State) : StepResult :=
  needModel s <| needWidth s 64 <|
    finish { s with
      combTable := builtCombTable (combSequence s.model).1 s.draws
      combCycle := BitVec.ofNat 8 (combSequence s.model).1.length
      combBack := BitVec.ofNat 8 ((combSequence s.model).2.getD 0xFF)
      status := { s.status with cvalid := true } }

/-- `norm(k)` (R222); none stands for COMBRANGE. -/
def normIndex (cycle back k : Nat) : Option Nat :=
  if k < cycle then some k
  else if back = 0xFF then none
  else some (back + (k - back) % (cycle - back))

/-- The walk's loop (R223) from bit 0 of `n` and table index `k`, with at most `fuel` bits left. -/
def walk (m : Model) (t : List Word) (cycle back : Nat) : Nat → Nat → Nat → Nat → Option Nat
  | 0, _, _, xp => some xp
  | fuel + 1, n, k, xp =>
    if n >>> 1 = 0 then some (if bit n 0 then multModP m (entry t k) xp else xp)
    else
      match normIndex cycle back (k + 1) with
      | none => none
      | some k' => walk m t cycle back fuel (n >>> 1) k' (if bit n 0 then multModP m (entry t k) xp else xp)

/-- `xnmodp(n, k0)` (R223) for a 64-bit n; none stands for COMBRANGE. -/
def xnModP (s : State) (n k0 : Nat) : Option Nat :=
  if n = 0 then some (polyOne s.model)
  else
    match normIndex s.combCycle.toNat s.combBack.toNat k0 with
    | none => none
    | some k => walk s.model s.combTable s.combCycle.toNat s.combBack.toNat 64 n k (polyOne s.model)

/-- X8N (R225). -/
def execX8n (s : State) : StepResult :=
  needModel s <| needWidth s 64 <| needTable s s.status.cvalid <| finishWalk s (xnModP s (opLen s) 3)

/-- ZEROS takes the combine path (R226, D29). -/
def zerosByTable (s : State) : Bool :=
  decide (128 ≤ opLen s) && decide (s.model.w ≤ 64) && s.status.cvalid

/-- The register after `n` zero bits, on either path (R226); none stands for COMBRANGE. -/
def zerosRegister (s : State) : Option Nat :=
  if zerosByTable s then (xnModP s (opLen s) 0).map fun xp => multModP s.model xp (crcOperand s)
  else some (applyTimes (mulX s.model) (opLen s) (crcOperand s))

/-- ZEROS (R226). -/
def execZeros (s : State) : StepResult :=
  needModel s <| finishWalk s ((zerosRegister s).map (post s.model))

/-- `reverse` at the I/O boundary of a rev model (R228). -/
def reverseRev (m : Model) (r : Nat) : Nat := if m.rev then bitReverse r m.w else r

/-- COMBINE's value (R228) from x^(8·len2) mod p. -/
def combineValue (m : Model) (crc1 crc2 xp : Nat) : Nat :=
  reverseRev m (multModP m xp (reverseRev m ((crc1 &&& ones m.w) ^^^ m.init.toNat))) ^^^ (crc2 &&& ones m.w)

/-- COMBINE (R228). -/
def execCombine (s : State) : StepResult :=
  needModel s <| needWidth s 64 <| needTable s s.status.cvalid <|
    finishWalk s ((xnModP s (opLen s) 3).map (combineValue s.model (opA s) (opB s)))

end Sys2Proof.Machine
end

