-- ==== Sys2Proof/Machine/Control.lean ====
section
/-! DEFINITION. NOP and CANON (spec/40_control_model.md R130 to R135). -/

namespace Sys2Proof.Machine

/-- NOP (R130). -/
def execNop (s : State) : StepResult := finish s

/-- CANON's validation (R132): the width is 1..128, p(x) is odd, and poly, init and xorout fit in it. -/
def usableModel (r : HostRegs) : Bool :=
  decide (1 ≤ r.cfgWidth.toNat) && decide (r.cfgWidth.toNat ≤ Config.maxWidth)
    && bit r.cfgPoly.toNat 0
    && r.cfgPoly.toNat >>> r.cfgWidth.toNat == 0
    && r.cfgInit.toNat >>> r.cfgWidth.toNat == 0
    && r.cfgXorout.toNat >>> r.cfgWidth.toNat == 0

/-- `reverse(x, w)` when `flag` is set, else x. -/
def reverseIf (flag : Bool) (x w : Nat) : Nat := if flag then bitReverse x w else x

/-- CANON's computation (R133): poly in the register's order, init in the output's order with xorout
folded in, rev = refin XOR refout. -/
def canonicalModel (r : HostRegs) : Model :=
  { width := r.cfgWidth
    ref := r.refin
    rev := r.refin ^^ r.refout
    poly := BitVec.ofNat 128 (reverseIf r.refin r.cfgPoly.toNat r.cfgWidth.toNat)
    init := BitVec.ofNat 128 (reverseIf r.refout r.cfgInit.toNat r.cfgWidth.toNat ^^^ r.cfgXorout.toNat)
    xorout := r.cfgXorout }

/-- A new model is held (R134): MVALID ← 1, the table flags ← 0, the tables' contents unspecified (log 5). -/
def State.holdModel (s : State) (m : Model) : State :=
  { s with
    model := m
    status := { s.status with mvalid := true, bvalid := false, wvalid := false, cvalid := false }
    byteTable := freeByteTable s.draws
    wordTable := freeWordTable s.draws
    combTable := freeCombTable s.draws }

/-- CANON (R131 to R135). It needs no model, and a failed one changes nothing. -/
def execCanon (s : State) : StepResult :=
  if usableModel s.commandRegs then finish (s.holdModel (canonicalModel s.commandRegs))
  else raiseError s .model

end Sys2Proof.Machine
end

