-- ==== Sys2Proof/Machine/Readout.lean ====
section
/-! DEFINITION. TBLRD (spec/45_table_readout.md R240, R241). -/

namespace Sys2Proof.Machine

/-- TBLRD with a well-formed selector (R241): the table SEL names, then the range of the index. -/
def readTable (s : State) (sel n k : Nat) : StepResult :=
  match sel with
  | 0 => needTable s s.status.bvalid <| finishValue s (entry s.byteTable k)
  | 1 =>
    needTable s s.status.wvalid <| needArg s (decide (n < wordBytes s.wtblW8)) <|
      finishValue s (wordEntry s.wordTable n k)
  | _ =>
    needTable s s.status.cvalid <| needArg s (decide (k < s.combCycle.toNat)) <|
      finishValue s (entry s.combTable k)

/-- TBLRD (R241): a malformed selector is ARG before the table's validity (R253). -/
def execTblrd (s : State) : StepResult :=
  needModel s <| needArg s (!selMalformed (opAux s)) <|
    readTable s (selTable (opAux s)) (selN (opAux s)) (selK (opAux s))

end Sys2Proof.Machine
end

