-- ==== Sys2Proof/Machine/Reversal.lean ====
section
/-! DEFINITION. REVERSE (spec/41_bit_reversal.md R152). -/

namespace Sys2Proof.Machine

/-- REVERSE (R152): reverse(OPA, AUX); ARG when AUX > 128. It needs no model. -/
def execReverse (s : State) : StepResult :=
  needArg s (decide (opAux s ≤ 128)) <| finishValue s (bitReverse (opA s) (opAux s))

end Sys2Proof.Machine
end

