-- ==== Sys2Proof/Machine/Tables.lean ====
section
/-! DEFINITION. The byte and word feedback-table engines: BUILD_BYTE, CRC_BYTE, BUILD_WORD, CRC_WORD
(spec/43_table_engines.md R180 to R197). -/

namespace Sys2Proof.Machine

/-- `Q(R)`, the aligned form (R180). -/
def alignReg (m : Model) (r : Nat) : Nat := if !m.ref && decide (m.w < 8) then r <<< (8 - m.w) else r

/-- `unQ(q)` (R180). -/
def unalignReg (m : Model) (q : Nat) : Nat := if !m.ref && decide (m.w < 8) then q >>> (8 - m.w) else q

/-- Entry k of table_byte as built (R181): `Q(feed(0, k))`. -/
def byteTableEntry (m : Model) (k : Nat) : Word := BitVec.ofNat 64 (alignReg m (feed m 0 k))

/-- table_byte as built (R181). -/
def builtByteTable (m : Model) : List Word := (List.range 256).map (byteTableEntry m)

/-- BUILD_BYTE (R182). WVALID and CVALID keep their values. -/
def execBuildByte (s : State) : StepResult :=
  needModel s <| needWidth s 64 <|
    finish { s with
      byteTable := builtByteTable s.model
      status := { s.status with bvalid := true } }

/-- `tstep(q, b)` with byte table `t` (R183). -/
def tableStep (m : Model) (t : List Word) (q b : Nat) : Nat :=
  if m.ref then (q >>> 8) ^^^ entry t ((q ^^^ b) &&& 0xFF)
  else if m.w ≤ 8 then entry t (q ^^^ b)
  else ((q <<< 8) &&& ones m.w) ^^^ entry t (((q >>> (m.w - 8)) ^^^ b) &&& 0xFF)

/-- The CRC of the buffer by table_byte (R186). -/
def byteCrc (s : State) : Run Nat :=
  (feedBuffer s (tableStep s.model s.byteTable) (opLen s) (opAddr s) (alignReg s.model (crcOperand s))).bind
    fun q => .value (post s.model (unalignReg s.model q))

/-- CRC_BYTE (R186). With E = 1 the model and table checks still apply (D55). -/
def execCrcByte (noData : Bool) (s : State) : StepResult :=
  needModel s <| needWidth s 64 <| needTable s s.status.bvalid <|
    if noData then finishValue s s.model.init.toNat
    else needBuffer s <| finishRun s (byteCrc s)

/-- `top` for words of `b` bytes (R190). -/
def laneTop (m : Model) (b : Nat) : Nat := if m.ref then 0 else 8 * b - max m.w 8

/-- `place(q)` (R192). -/
def place (m : Model) (b : Nat) (little : Bool) (q : Nat) : Nat :=
  if little = m.ref then q <<< laneTop m b else byteSwap (q <<< laneTop m b) b

/-- `unplace(v)` (R192). -/
def unplace (m : Model) (b : Nat) (little : Bool) (v : Nat) : Nat :=
  if little = m.ref then v >>> laneTop m b else byteSwap v b >>> laneTop m b

/-- Entry k of row n of table_word as built over the byte table `t` (R193): T[k] advanced by n zero
bytes, placed. -/
def wordTableEntry (m : Model) (t : List Word) (b : Nat) (little : Bool) (n k : Nat) : Word :=
  BitVec.ofNat 64 (place m b little (applyTimes (fun q => tableStep m t q 0) n (entry t k)))

/-- Row n of table_word as built (R193). -/
def builtWordRow (m : Model) (t : List Word) (b : Nat) (little : Bool) (n : Nat) : List Word :=
  (List.range 256).map (wordTableEntry m t b little n)

/-- table_word after BUILD_WORD: rows 0..B − 1 built, rows B..7 unspecified (R41, R193, U4; log 5). -/
def builtWordTable (m : Model) (t : List Word) (b : Nat) (little : Bool) (draw : Nat) : List (List Word) :=
  (List.range 8).map fun n => if n < b then builtWordRow m t b little n else freeWordRow draw n

/-- BUILD_WORD (R194). CTRL.LITTLE and CTRL.W8 are the snapshot's. -/
def execBuildWord (s : State) : StepResult :=
  needModel s <| needWidth s (min 64 (8 * wordBytes s.commandRegs.w8)) <| needTable s s.status.bvalid <|
    finish { s with
      wordTable :=
        builtWordTable s.model s.byteTable (wordBytes s.commandRegs.w8) s.commandRegs.little s.draws
      wtblLittle := s.commandRegs.little
      wtblW8 := s.commandRegs.w8
      status := { s.status with wvalid := true } }

/-- The word that bytes in ascending address order form (R76, R195). -/
def wordOfBytes (little : Bool) (bs : List Byte) : Nat :=
  if little then bs.foldr (fun b acc => b.toNat + 256 * acc) 0
  else bs.foldl (fun acc b => 256 * acc + b.toNat) 0

/-- The row of table_word that lane j is looked up in (R195). -/
def laneRow (b : Nat) (little : Bool) (j : Nat) : Nat := if little then b - 1 - j else j

/-- The XOR of the first `n` lanes' lookups for X (R195). -/
def laneXor (t : List (List Word)) (b : Nat) (little : Bool) (x : Nat) : Nat → Nat
  | 0 => 0
  | n + 1 => laneXor t b little x n ^^^ wordEntry t (laneRow b little n) (field x (8 * n) 8)

/-- One word of the bulk loop (R195, R197): the new placed register. -/
def wordStep (t : List (List Word)) (b : Nat) (little : Bool) (v word : Nat) : Nat :=
  laneXor t b little (v ^^^ word) b

/-- The alignment prologue (R197): single bytes until the address is a multiple of B or none is left.
It gives the address, the count left and the register. -/
def prologue (s : State) (b : Nat) : Nat → Nat → Nat → Run (Nat × Nat × Nat)
  | 0, a, q => .value (a, 0, q)
  | n + 1, a, q =>
    if a % b = 0 then .value (a, n + 1, q)
    else
      (memRead s a 1).bind fun bs =>
        prologue s b n (a + 1) (tableStep s.model s.byteTable q (bs.getD 0 0).toNat)

/-- The bulk loop over `n` aligned words (R197), from address `a` and placed register `v`. -/
def bulk (s : State) (b : Nat) (little : Bool) : Nat → Nat → Nat → Run Nat
  | 0, _, v => .value v
  | n + 1, a, v =>
    (memRead s a b).bind fun bs =>
      bulk s b little n (a + b) (wordStep s.wordTable b little v (wordOfBytes little bs))

/-- The bulk loop in place of R197's `if n ≥ B`: with no whole word left the register is as it was. -/
def bulkPart (s : State) (b : Nat) (little : Bool) (n a q : Nat) : Run Nat :=
  if b ≤ n then
    (bulk s b little (n / b) a (place s.model b little q)).bind fun v => .value (unplace s.model b little v)
  else .value q

/-- The CRC of the buffer by table_word (R197), with the latched word size and byte order. -/
def wordCrc (s : State) : Run Nat :=
  (prologue s (wordBytes s.wtblW8) (opLen s) (opAddr s) (alignReg s.model (crcOperand s))).bind fun p =>
    (bulkPart s (wordBytes s.wtblW8) s.wtblLittle p.2.1 p.1 p.2.2).bind fun q =>
      (feedBuffer s (tableStep s.model s.byteTable) (p.2.1 % wordBytes s.wtblW8)
        (p.1 + wordBytes s.wtblW8 * (p.2.1 / wordBytes s.wtblW8)) q).bind fun q' =>
          .value (post s.model (unalignReg s.model q'))

/-- CRC_WORD (R197). -/
def execCrcWord (noData : Bool) (s : State) : StepResult :=
  needModel s <| needWidth s 64 <| needTable s s.status.wvalid <|
    if noData then finishValue s s.model.init.toNat
    else needBuffer s <| finishRun s (wordCrc s)

end Sys2Proof.Machine
end

