-- ==== Sys2Proof/Machine/Dispatch.lean ====
section
/-! DEFINITION. One arm per command. -/

namespace Sys2Proof.Machine

-- The end state of a command, from the state in which it is in flight (spec/60_exceptions.md R255).
def exec (i : Instr) (s : State) : Host.Outcome State Fault Refusal :=
  match i with
  | .nop => Sys2Proof.Machine.execNop s
  | .canon => Sys2Proof.Machine.execCanon s
  | .buildByte => Sys2Proof.Machine.execBuildByte s
  | .buildWord => Sys2Proof.Machine.execBuildWord s
  | .buildComb => Sys2Proof.Machine.execBuildComb s
  | .crcBit e => Sys2Proof.Machine.execCrcBit e s
  | .crcByte e => Sys2Proof.Machine.execCrcByte e s
  | .crcWord e => Sys2Proof.Machine.execCrcWord e s
  | .crcRem => Sys2Proof.Machine.execCrcRem s
  | .reverse => Sys2Proof.Machine.execReverse s
  | .mulmod => Sys2Proof.Machine.execMulmod s
  | .x8n => Sys2Proof.Machine.execX8n s
  | .zeros => Sys2Proof.Machine.execZeros s
  | .combine => Sys2Proof.Machine.execCombine s
  | .tblrd => Sys2Proof.Machine.execTblrd s

end Sys2Proof.Machine
end

