-- ==== Sys2Proof/Machine/Engine.lean ====
section
/-! DEFINITION. The engine's turn: the completion of the command in flight (spec/60_exceptions.md R255), by decoding its
word (spec/30_encoding.md R105). -/

namespace Sys2Proof.Machine

/-- The command whose word is `w` runs to its end (R255); an illegal word completes with ILLEGAL and no
other effect (R105, R252), decided before any other check (R253). -/
def runWord (w : Word) (s : State) : StepResult :=
  match decode w with
  | .ok i => exec i s
  | .error _ => raiseError s .illegal

/-- The engine's turn: the command in flight completes; an idle block waits (R282; log 9). -/
def engineTurn (s : State) : StepResult :=
  match s.inflight with
  | some c => runWord c.word s
  | none => .next s

end Sys2Proof.Machine
end

