-- ==== Sys2Proof/Machine/Flags.lean ====
section
/-! DEFINITION. STATUS and the other registers made of fields: how each is assembled and what a write changes
(spec/10_state.md R24, R25, R27, R28, R35, R37, R38, R45), and the interrupt line (spec/60_exceptions.md R256). -/

namespace Sys2Proof.Machine

/-- The ERRCODE value (R251). -/
def ErrCode.code : ErrCode → Nat
  | .ok => 0
  | .illegal => 1
  | .noModel => 2
  | .model => 3
  | .width => 4
  | .noTable => 5
  | .arg => 6
  | .addr => 7
  | .bus => 8
  | .combRange => 9

/-- STATUS.ERR (R25, D52): ERRCODE ≠ 0. -/
def Status.errFlag (f : Status) : Bool := f.err != .ok

/-- The STATUS register as a host reads it (R25). -/
def statusWord (s : State) : Word :=
  BitVec.ofNat 64
    (s.busy.toNat + 2 * s.status.done.toNat + 4 * s.status.errFlag.toNat + 8 * s.status.ovr.toNat
      + 256 * s.status.err.code + 65536 * s.status.mvalid.toNat + 131072 * s.status.bvalid.toNat
      + 262144 * s.status.wvalid.toNat + 524288 * s.status.cvalid.toNat)

/-- A host write of STATUS (R25): bits 1 and 3 clear DONE and OVR when written with 1; nothing else changes. -/
def Status.writeOneToClear (f : Status) (v : Word) : Status :=
  { f with done := f.done && !v.getLsbD 1, ovr := f.ovr && !v.getLsbD 3 }

/-- The CTRL register as a host reads it (R24). -/
def ctrlWord (s : State) : Word :=
  BitVec.ofNat 64 (s.ie.toNat + 2 * s.regs.little.toNat + 4 * s.regs.w8.toNat)

/-- The CFG_FLAGS register as a host reads it (R28). -/
def cfgFlagsWord (r : HostRegs) : Word := BitVec.ofNat 64 (r.refin.toNat + 2 * r.refout.toNat)

/-- The M_CFG register (R35). -/
def modelWord (m : Model) : Word :=
  BitVec.ofNat 64 (m.width.toNat + 256 * m.ref.toNat + 512 * m.rev.toNat)

/-- The COMB_INFO register (R37). -/
def combInfoWord (s : State) : Word := BitVec.ofNat 64 (s.combCycle.toNat + 256 * s.combBack.toNat)

/-- The WTBL_INFO register (R38). -/
def wtblInfoWord (s : State) : Word := BitVec.ofNat 64 (s.wtblLittle.toNat + 2 * s.wtblW8.toNat)

/-- The interrupt output, IRQ = CTRL.IE AND STATUS.DONE (R256). -/
def State.irq (s : State) : Bool := s.ie && s.status.done

end Sys2Proof.Machine
end

