-- ==== Sys2Proof/Machine/Window.lean ====
section
/-! DEFINITION. The register window: the map of the 32 registers (spec/10_state.md R20), host reads and writes
(spec/20_memory.md R71 to R73), the CMD write (R26, spec/60_exceptions.md R257). -/

namespace Sys2Proof.Machine

/-- The registers of the window, in offset order (R20). -/
inductive Reg where
  | id | param | ctrl | status | cmd | cfgWidth | cfgFlags
  | cfgPolyLo | cfgPolyHi | cfgInitLo | cfgInitHi | cfgXoroutLo | cfgXoroutHi
  | opaLo | opaHi | opbLo | opbHi | addr | len | aux
  | resultLo | resultHi | errAddr | mCfg
  | mPolyLo | mPolyHi | mInitLo | mInitHi | mXoroutLo | mXoroutHi
  | combInfo | wtblInfo
deriving DecidableEq, Repr

/-- The map of R20: entry k stands at offset 8·k. -/
def registerMap : List Reg :=
  [.id, .param, .ctrl, .status, .cmd, .cfgWidth, .cfgFlags,
   .cfgPolyLo, .cfgPolyHi, .cfgInitLo, .cfgInitHi, .cfgXoroutLo, .cfgXoroutHi,
   .opaLo, .opaHi, .opbLo, .opbHi, .addr, .len, .aux,
   .resultLo, .resultHi, .errAddr, .mCfg,
   .mPolyLo, .mPolyHi, .mInitLo, .mInitHi, .mXoroutLo, .mXoroutHi,
   .combInfo, .wtblInfo]

/-- A host read of a register (R20 to R38): 64 bits, without side effect. -/
def readReg (s : State) : Reg → Word
  | .id => Config.idValue
  | .param => Config.paramValue
  | .ctrl => ctrlWord s
  | .status => statusWord s
  | .cmd => s.cmd
  | .cfgWidth => BitVec.ofNat 64 s.regs.cfgWidth.toNat
  | .cfgFlags => cfgFlagsWord s.regs
  | .cfgPolyLo => lowHalf s.regs.cfgPoly
  | .cfgPolyHi => highHalf s.regs.cfgPoly
  | .cfgInitLo => lowHalf s.regs.cfgInit
  | .cfgInitHi => highHalf s.regs.cfgInit
  | .cfgXoroutLo => lowHalf s.regs.cfgXorout
  | .cfgXoroutHi => highHalf s.regs.cfgXorout
  | .opaLo => lowHalf s.regs.opa
  | .opaHi => highHalf s.regs.opa
  | .opbLo => lowHalf s.regs.opb
  | .opbHi => highHalf s.regs.opb
  | .addr => s.regs.addr
  | .len => s.regs.len
  | .aux => s.regs.aux
  | .resultLo => lowHalf s.result
  | .resultHi => highHalf s.result
  | .errAddr => s.errAddr
  | .mCfg => modelWord s.model
  | .mPolyLo => lowHalf s.model.poly
  | .mPolyHi => highHalf s.model.poly
  | .mInitLo => lowHalf s.model.init
  | .mInitHi => highHalf s.model.init
  | .mXoroutLo => lowHalf s.model.xorout
  | .mXoroutHi => highHalf s.model.xorout
  | .combInfo => combInfoWord s
  | .wtblInfo => wtblInfoWord s

/-- A write of CMD (R26, R257): accepted when idle; dropped with OVR ← 1 when busy. -/
def writeCommand (s : State) (v : Word) : State :=
  if s.busy then { s with status := { s.status with ovr := true } } else s.accept v

/-- A write of CTRL (R24): IE acts at once, LITTLE and W8 through the next BUILD_WORD; bits 63:3 are ignored. -/
def writeCtrl (s : State) (v : Word) : State :=
  { s with
    ie := v.getLsbD 0
    regs := { s.regs with little := v.getLsbD 1, w8 := v.getLsbD 2 } }

/-- A host write of a register (R20 to R38, R72). A write to an RO register and reserved bits are ignored;
writes while a command is in flight are performed at once (R284). -/
def writeReg (s : State) (r : Reg) (v : Word) : State :=
  match r with
  | .ctrl => writeCtrl s v
  | .status => { s with status := s.status.writeOneToClear v }
  | .cmd => writeCommand s v
  | .cfgWidth => { s with regs := { s.regs with cfgWidth := v.extractLsb' 0 8 } }
  | .cfgFlags => { s with regs := { s.regs with refin := v.getLsbD 0, refout := v.getLsbD 1 } }
  | .cfgPolyLo => { s with regs := { s.regs with cfgPoly := withLow s.regs.cfgPoly v } }
  | .cfgPolyHi => { s with regs := { s.regs with cfgPoly := withHigh s.regs.cfgPoly v } }
  | .cfgInitLo => { s with regs := { s.regs with cfgInit := withLow s.regs.cfgInit v } }
  | .cfgInitHi => { s with regs := { s.regs with cfgInit := withHigh s.regs.cfgInit v } }
  | .cfgXoroutLo => { s with regs := { s.regs with cfgXorout := withLow s.regs.cfgXorout v } }
  | .cfgXoroutHi => { s with regs := { s.regs with cfgXorout := withHigh s.regs.cfgXorout v } }
  | .opaLo => { s with regs := { s.regs with opa := withLow s.regs.opa v } }
  | .opaHi => { s with regs := { s.regs with opa := withHigh s.regs.opa v } }
  | .opbLo => { s with regs := { s.regs with opb := withLow s.regs.opb v } }
  | .opbHi => { s with regs := { s.regs with opb := withHigh s.regs.opb v } }
  | .addr => { s with regs := { s.regs with addr := v } }
  | .len => { s with regs := { s.regs with len := v } }
  | .aux => { s with regs := { s.regs with aux := v } }
  | .id => s
  | .param => s
  | .resultLo => s
  | .resultHi => s
  | .errAddr => s
  | .mCfg => s
  | .mPolyLo => s
  | .mPolyHi => s
  | .mInitLo => s
  | .mInitHi => s
  | .mXoroutLo => s
  | .mXoroutHi => s
  | .combInfo => s
  | .wtblInfo => s

/-- The access touches the 256 bytes of the window (R70; log 10). -/
def touchesWindow (p : Platform) (addr size : Nat) : Bool :=
  decide (addr < p.regBase + 256) && decide (p.regBase < addr + size)

/-- The register of a proper access (R71, R72): 64 bits at an offset that is a multiple of 8. -/
def accessedReg (p : Platform) (addr size : Nat) : Option Reg :=
  if p.regBase ≤ addr ∧ size = 8 ∧ (addr - p.regBase) % 8 = 0 then registerMap[(addr - p.regBase) / 8]?
  else none

/-- A host write (R71): performed, refused with an error response, or not the block's (D7). -/
def hostWrite (s : State) (addr size : Nat) (v : Word) : State :=
  if touchesWindow s.platform addr size then
    match accessedReg s.platform addr size with
    | some r => { writeReg s r v with response := .written }
    | none => { s with response := .error }
  else { s with response := .none }

/-- A host read (R71): its value, an error response and no value, or not the block's (D7). -/
def hostRead (s : State) (addr size : Nat) : State :=
  if touchesWindow s.platform addr size then
    match accessedReg s.platform addr size with
    | some r => { s with response := .data (readReg s r) }
    | none => { s with response := .error }
  else { s with response := .none }

end Sys2Proof.Machine
end

