-- ==== Sys2Proof/Machine/Step.lean ====
section
/-! DEFINITION. One event of the total order (spec/70_reset_and_hazards.md R291) is one step. -/

namespace Sys2Proof.Machine

/-- What an event does (R291). -/
def applyEvent (e : Event) (s : State) : StepResult :=
  match e with
  | .hostWrite addr size v => .next (hostWrite s addr size v)
  | .hostRead addr size => .next (hostRead s addr size)
  | .complete => engineTurn s
  | .memWrite addr b => .next (memoryWrite s addr b)
  | .reset => .next (resetBlock s)

/-- The event the platform presents next (log 1): the head of the schedule; once the schedule has run out the
engine has the turn, since every command completes in finite time (R292). -/
def nextEvent (s : State) : Event := s.schedule.headD .complete

/-- One step: the next event of the order. -/
def step (s : State) : Host.Outcome State Fault Refusal :=
  applyEvent (nextEvent s) { s with schedule := s.schedule.tail }

/-- `s` with the command word `w` accepted and the engine's turn next (R80; log 2): the very next step runs the
command. The block fetches nothing (R21), so this acceptance is what brings a command to the engine; a word
with a bit beyond the format's 64 is no command and leaves `s`. -/
def State.withFetchWord (s : State) (nbits w : Nat) : State :=
  match tableWord nbits w with
  | some v => { s.accept v with schedule := .complete :: s.schedule }
  | none => s

end Sys2Proof.Machine
end

