-- ==== Sys2Proof/Safety.lean ====
section
/-! DEFINITION. The terms that claims use: the invariant of the block (spec/10_state.md R36, R40 to R43), the reads of a
command (spec/20_memory.md R75), what a CRC of a byte string is (spec/42_bit_serial.md R162 to R166), and how two
outcomes are compared. -/

namespace Sys2Proof.Machine

/-! ## Outcomes -/

/-- The outcome with `f` applied to its next state. -/
def mapNext (f : State → State) : StepResult → StepResult
  | .next t => .next (f t)
  | .fault r => .fault r
  | .refused r => .refused r

/-! ## The invariant -/

/-- A canonical model (R36): the width is 1..128, poly, init and xorout are below 2^w, and the coefficient
of x^0 of p is 1. -/
structure Model.Canonical (m : Model) : Prop where
  widthPos : 1 ≤ m.w
  widthMax : m.w ≤ 128
  polyFits : m.poly.toNat < 2 ^ m.w
  initFits : m.init.toNat < 2 ^ m.w
  xoroutFits : m.xorout.toNat < 2 ^ m.w
  unitTerm : bit m.poly.toNat (if m.ref then m.w - 1 else 0) = true

/-- table_byte is the held model's (R40, R43, R181). -/
structure State.ByteTableBuilt (s : State) : Prop where
  model : s.status.mvalid = true
  fits : s.model.w ≤ 64
  content : s.byteTable = builtByteTable s.model

/-- table_word is the held model's, for the latched options (R41, R43, R193). -/
structure State.WordTableBuilt (s : State) : Prop where
  byte : s.status.bvalid = true
  fits : s.model.w ≤ 8 * wordBytes s.wtblW8
  content : ∀ n < wordBytes s.wtblW8,
    s.wordTable.getD n [] = builtWordRow s.model s.byteTable (wordBytes s.wtblW8) s.wtblLittle n

/-- table_comb and COMB_INFO are the held model's (R37, R42, R43, R220). -/
structure State.CombTableBuilt (s : State) : Prop where
  model : s.status.mvalid = true
  fits : s.model.w ≤ 64
  cycle : s.combCycle.toNat = (combSequence s.model).1.length
  back : s.combBack.toNat = (combSequence s.model).2.getD 0xFF
  content : ∀ k < (combSequence s.model).1.length, entry s.combTable k = (combSequence s.model).1.getD k 0

/-- The table memories have their sizes (R40, R41, R42). -/
structure State.TableSizes (s : State) : Prop where
  byte : s.byteTable.length = 256
  word : s.wordTable.length = 8
  rows : ∀ row ∈ s.wordTable, row.length = 256
  comb : s.combTable.length = 131

/-- The invariant of the block: memory is canonical; an idle block has no races; DONE is 0 while BUSY (R290);
CMD reads back the word in flight (D50); the held model is canonical (R36); and every table whose flag is set is
the held model's (R43). -/
structure Inv (s : State) : Prop where
  memory : Memory.wf s.mem
  idle : s.inflight = none → s.held = []
  busy : s.busy = true → s.status.done = false
  command : ∀ c, s.inflight = some c → s.cmd = c.word
  model : s.status.mvalid = true → s.model.Canonical
  byteTable : s.status.bvalid = true → s.ByteTableBuilt
  wordTable : s.status.wvalid = true → s.WordTableBuilt
  combTable : s.status.cvalid = true → s.CombTableBuilt
  sizes : s.TableSizes

/-! ## The reads of a command -/

/-- `n` reads of one byte from `a` up (R75). -/
def byteReads (a n : Nat) : List (Nat × Nat) := (List.range n).map fun i => (a + i, 1)

/-- The bytes before the first address that is a multiple of B, at most `n` (R75, R197). -/
def prologueLength (b a n : Nat) : Nat := min n ((b - a % b) % b)

/-- The reads of CRC_WORD over `n` bytes from `a` up with word size `b` (R75, R197), as (address, size). -/
def wordReads (b a n : Nat) : List (Nat × Nat) :=
  byteReads a (prologueLength b a n)
    ++ (List.range ((n - prologueLength b a n) / b)).map (fun i => (a + prologueLength b a n + b * i, b))
    ++ byteReads (a + prologueLength b a n + b * ((n - prologueLength b a n) / b)) ((n - prologueLength b a n) % b)

/-- The reads that a command with data makes (R75): none but for the three buffer commands. -/
def readsOf (s : State) : Instr → List (Nat × Nat)
  | .crcBit false => byteReads (opAddr s) (opLen s)
  | .crcByte false => byteReads (opAddr s) (opLen s)
  | .crcWord false => wordReads (wordBytes s.wtblW8) (opAddr s) (opLen s)
  | _ => []

/-- The platform answers the read, and no read side effect is involved. -/
def State.answers (s : State) (r : Nat × Nat) : Prop :=
  s.platform.admits r.1 r.2 = true ∧ s.platform.touchesDevice r.1 r.2 = false

/-- The checks that stand before the reads of a buffer command pass (R166, R186, R197, R254). -/
def bufferChecksPass (s : State) : Instr → Prop
  | .crcBit false =>
    s.status.mvalid = true ∧ opAddr s + opLen s ≤ 2 ^ 64
  | .crcByte false =>
    s.status.mvalid = true ∧ s.model.w ≤ 64 ∧ s.status.bvalid = true ∧ opAddr s + opLen s ≤ 2 ^ 64
  | .crcWord false =>
    s.status.mvalid = true ∧ s.model.w ≤ 64 ∧ s.status.wvalid = true ∧ opAddr s + opLen s ≤ 2 ^ 64
  | _ => False

/-- The values a read of address `a` may take (R83): the value there and those held since acceptance. -/
def candidates (s : State) (a : Nat) : List Byte := memGet s.mem a :: heldAt s.held a

/-! ## CRC of a byte string -/

/-- The register after the bytes `bs`, from the register `r` (R162). -/
def feedAll (m : Model) (r : Nat) (bs : List Byte) : Nat := bs.foldl (fun r b => feed m r b.toNat) r

/-- The pipeline CRC of `bs` from the pipeline value `c` (R163, R164, R166). -/
def crcFrom (m : Model) (c : Nat) (bs : List Byte) : Nat := post m (feedAll m (pre m c) bs)

/-- x^n modulo p in the register representation (R210, R211). -/
def polyPower (m : Model) (n : Nat) : Nat := applyTimes (mulX m) n (polyOne m)

/-! ## The byte feed in the source's three branches (R165) -/

/-- The source's byte feed, "three branches, selected by (ref, width ≤ 8)" (R165). -/
def feedByBranches (m : Model) (r b : Nat) : Nat :=
  if m.ref then
    applyTimes (fun c => if bit c 0 then (c >>> 1) ^^^ m.poly.toNat else c >>> 1) 8 ((r &&& ones m.w) ^^^ b)
  else if m.w ≤ 8 then
    (applyTimes
      (fun c =>
        if bit c 7 then ((c <<< 1) ^^^ (m.poly.toNat <<< (8 - m.w))) &&& 0xFF else (c <<< 1) &&& 0xFF)
      8 ((r <<< (8 - m.w)) ^^^ b) >>> (8 - m.w)) &&& ones m.w
  else
    applyTimes (fun c => if bit c (m.w - 1) then (c <<< 1) ^^^ m.poly.toNat else c <<< 1) 8
      (r ^^^ (b <<< (m.w - 8))) &&& ones m.w

end Sys2Proof.Machine
end

