-- ==== Sys2Proof/Certificates/Slice0/Obligations.lean ====
section
/-! DEFINITION. The statements for the provers. -/

open Sys2Proof Sys2Proof.Machine

/-! ## The command word -/

/-- R107: the eighteen command words, written out from the rule's table. -/
def Obligations.CommandWordsDecode : Prop :=
  ∀ p ∈ ([(.nop, 0x0000000000000000), (.canon, 0x0000000000000001), (.buildByte, 0x0000000000000002),
      (.buildWord, 0x0000000000000003), (.buildComb, 0x0000000000000004),
      (.crcBit false, 0x0000000000000010), (.crcBit true, 0x0000000000000110),
      (.crcByte false, 0x0000000000000011), (.crcByte true, 0x0000000000000111),
      (.crcWord false, 0x0000000000000012), (.crcWord true, 0x0000000000000112),
      (.crcRem, 0x0000000000000013), (.reverse, 0x0000000000000020), (.mulmod, 0x0000000000000021),
      (.x8n, 0x0000000000000022), (.zeros, 0x0000000000000023), (.combine, 0x0000000000000024),
      (.tblrd, 0x0000000000000030)] : List (Instr × Word)),
    encode p.1 = p.2 ∧ decode p.2 = .ok p.1

/-- R100, R103: decoding and encoding agree in both directions. Every well-formed command decodes from its
word and from no other word. -/
def Obligations.DecodeAndEncodeAgree : Prop :=
  ∀ (i : Instr) (w : Word), i.wf = true → (decode w = .ok i ↔ w = encode i)

/-- R105: which words are illegal, that an illegal word is accepted and completes with ILLEGAL and no other
effect, and that exactly eighteen words are legal, fifteen with E = 0 and three with E = 1. -/
def Obligations.IllegalWordsCompleteWithIllegal : Prop :=
  (∀ w : Word, (∃ e, decode w = .error e) ↔
    (w.toNat >>> 9 ≠ 0 ∨
      w.toNat % 256 ∉ [0x00, 0x01, 0x02, 0x03, 0x04, 0x10, 0x11, 0x12, 0x13, 0x20, 0x21, 0x22, 0x23, 0x24, 0x30] ∨
      (w.toNat.testBit 8 = true ∧ w.toNat % 256 ∉ [0x10, 0x11, 0x12]))) ∧
  (∀ (s : State) (w : Word) (e : DecodeError), s.busy = false → decode w = .error e →
    (writeReg s .cmd w).busy = true ∧ (writeReg s .cmd w).status.done = false ∧ (writeReg s .cmd w).cmd = w ∧
      engineTurn (writeReg s .cmd w) = .next ((writeReg s .cmd w).complete .illegal)) ∧
  {w : Word | ∃ i, decode w = .ok i}.ncard = 18 ∧
  {w : Word | ∃ i, decode w = .ok i ∧ i.noData = false}.ncard = 15 ∧
  {w : Word | ∃ i, decode w = .ok i ∧ i.noData = true}.ncard = 3

/-! ## The step -/

/-- R255, R291: a step is the next event of the order, at the state with that event taken off the schedule (the model's
record of the order, log 1). The engine's turn is exec of the decoded command in flight, the completion with ILLEGAL of
a word that decodes to none (R105), or nothing in an idle block (R282; log 9). A host write, a host read, a memory write
and a reset do what `hostWrite`, `hostRead`, `memoryWrite` and `resetBlock` do. -/
def Obligations.StepRunsTheDecodedCommand : Prop :=
  ∀ s s' : State, s' = { s with schedule := s.schedule.tail } →
    (∀ (c : Snapshot) (i : Instr), s.inflight = some c → nextEvent s = .complete → decode c.word = .ok i →
      step s = exec i s') ∧
    (∀ (c : Snapshot) (e : DecodeError), s.inflight = some c → nextEvent s = .complete → decode c.word = .error e →
      step s = .next (s'.complete .illegal)) ∧
    (s.inflight = none → nextEvent s = .complete → step s = .next s') ∧
    (∀ a n v, nextEvent s = .hostWrite a n v → step s = .next (hostWrite s' a n v)) ∧
    (∀ a n, nextEvent s = .hostRead a n → step s = .next (hostRead s' a n)) ∧
    (∀ a b, nextEvent s = .memWrite a b → step s = .next (memoryWrite s' a b)) ∧
    (nextEvent s = .reset → step s = .next (resetBlock s')) ∧
    (∀ e es, s.schedule = e :: es → nextEvent s = e) ∧ (s.schedule = [] → nextEvent s = .complete)

/-- R80 (log 2): a command word placed for the very next step is accepted and run by it. -/
def Obligations.PlacedWordRunsNext : Prop :=
  ∀ (s : State) (i : Instr), step (s.withFetchWord 64 (encode i).toNat) = exec i (s.accept (encode i))

/-- R292 (logs 1 and 7): the command in flight completes for every delay: whatever reads, memory writes and engine turns the
platform schedules, the command has completed when the schedule has run out and the engine had its turn. -/
def Obligations.CommandCompletesForEveryDelay : Prop :=
  ∀ s : State, s.platform.device = [] → s.busy = true →
    (∀ e ∈ s.schedule, e = .complete ∨ (∃ a n, e = .hostRead a n) ∨ (∃ a b, e = .memWrite a b)) →
    ∃ t : State, Host.Core.run Sys2Proof.core (s.schedule.length + 1) s = .next t ∧
      t.busy = false ∧ t.status.done = true

/-- R250: the block has no traps. On a platform without read side effects (log 7) every step answers a next state,
and no step changes the platform: that MemAdmit and REG_BASE, the parameters of R9, do not change with time is the
model's choice (log 3). -/
def Obligations.EveryStepProceeds : Prop :=
  ∀ s : State, s.platform.device = [] → ∃ t, step s = .next t ∧ t.platform = s.platform

/-- R36, R40 to R43, R290, D50: every step keeps the invariant. -/
def Obligations.StepKeepsInvariant : Prop :=
  ∀ s t : State, Inv s → step s = .next t → Inv t

/-- R280, R281: the reset state meets the invariant, and so does a block that is reset over a canonical memory.
The contents of the tables at reset are free values (log 5), and the claim holds whatever they are. -/
def Obligations.ResetMeetsInvariant : Prop :=
  Inv State.reset ∧ ∀ s : State, Memory.wf s.mem → Inv (resetBlock s)

/-! ## The register window -/

/-- R71: a window access that is not a 64-bit access at an offset that is a multiple of 8 is not performed. It
changes no state of the block and is answered with an error and no value; a proper one reaches the register of its
offset. (`response` is the model's record of the answer, log 11.) -/
def Obligations.OnlyAligned64BitAccesses : Prop :=
  ∀ (s : State) (a n : Nat) (v : Word), touchesWindow s.platform a n = true →
    (¬ (s.platform.regBase ≤ a ∧ n = 8 ∧ (a - s.platform.regBase) % 8 = 0) →
      hostWrite s a n v = { s with response := .error } ∧ hostRead s a n = { s with response := .error }) ∧
    (s.platform.regBase ≤ a ∧ n = 8 ∧ (a - s.platform.regBase) % 8 = 0 →
      ∃ r, registerMap[(a - s.platform.regBase) / 8]? = some r ∧ accessedReg s.platform a n = some r ∧
        hostWrite s a n v = { writeReg s r v with response := .written } ∧
        hostRead s a n = { s with response := .data (readReg s r) })

/-- R72, R20: writes to RO registers and to reserved bits are ignored; the offsets 0x000 to 0x0F8 are the registers of
R20's table, written out here; and each of the 32 offsets of the window, a multiple of 8, holds a register of its own. -/
def Obligations.ReadOnlyAndReservedWritesIgnored : Prop :=
  (∀ (s : State) (v : Word), ∀ r ∈ ([.id, .param, .resultLo, .resultHi, .errAddr, .mCfg, .mPolyLo, .mPolyHi,
      .mInitLo, .mInitHi, .mXoroutLo, .mXoroutHi, .combInfo, .wtblInfo] : List Reg), writeReg s r v = s) ∧
  (∀ (s : State) (v : Word),
    writeReg s .ctrl v = writeReg s .ctrl (v &&& 7) ∧ readReg (writeReg s .ctrl v) .ctrl = v &&& 7 ∧
    writeReg s .cfgWidth v = writeReg s .cfgWidth (v &&& 0xFF) ∧
    readReg (writeReg s .cfgWidth v) .cfgWidth = v &&& 0xFF ∧
    writeReg s .cfgFlags v = writeReg s .cfgFlags (v &&& 3) ∧
    readReg (writeReg s .cfgFlags v) .cfgFlags = v &&& 3 ∧
    writeReg s .status v = writeReg s .status (v &&& 0xA)) ∧
  (∀ (p : Platform), ∀ e ∈ ([(0x000, .id), (0x008, .param), (0x010, .ctrl), (0x018, .status), (0x020, .cmd),
      (0x028, .cfgWidth), (0x030, .cfgFlags), (0x038, .cfgPolyLo), (0x040, .cfgPolyHi), (0x048, .cfgInitLo),
      (0x050, .cfgInitHi), (0x058, .cfgXoroutLo), (0x060, .cfgXoroutHi), (0x068, .opaLo), (0x070, .opaHi),
      (0x078, .opbLo), (0x080, .opbHi), (0x088, .addr), (0x090, .len), (0x098, .aux), (0x0A0, .resultLo),
      (0x0A8, .resultHi), (0x0B0, .errAddr), (0x0B8, .mCfg), (0x0C0, .mPolyLo), (0x0C8, .mPolyHi), (0x0D0, .mInitLo),
      (0x0D8, .mInitHi), (0x0E0, .mXoroutLo), (0x0E8, .mXoroutHi), (0x0F0, .combInfo), (0x0F8, .wtblInfo)] :
      List (Nat × Reg)), accessedReg p (p.regBase + e.1) 8 = some e.2) ∧
  (∀ k < 32, ∃ r, registerMap[k]? = some r ∧ ∀ j < 32, registerMap[j]? = some r → j = k)

/-- R20 to R38: what each register of the window shows and which state a write of it sets. A 128-bit quantity is shown by
its LO (bits 63:0) and HI (bits 127:64) registers; CTRL, CFG_WIDTH, CFG_FLAGS, M_CFG, COMB_INFO and WTBL_INFO show their
fields at their bits and 0 elsewhere; CMD shows the last accepted word and ERRADDR the failing address. A write sets the
state of its own name and nothing else; a wholly writable register reads back what was written; and writing any register
but STATUS and CMD (stated apart) leaves every other register of the window as it reads. -/
def Obligations.RegistersReadBackWhatWasWritten : Prop :=
  (∀ s : State, ∀ q ∈ ([(.cfgPolyLo, .cfgPolyHi, s.regs.cfgPoly), (.cfgInitLo, .cfgInitHi, s.regs.cfgInit),
      (.cfgXoroutLo, .cfgXoroutHi, s.regs.cfgXorout), (.opaLo, .opaHi, s.regs.opa), (.opbLo, .opbHi, s.regs.opb),
      (.resultLo, .resultHi, s.result), (.mPolyLo, .mPolyHi, s.model.poly), (.mInitLo, .mInitHi, s.model.init),
      (.mXoroutLo, .mXoroutHi, s.model.xorout)] : List (Reg × Reg × Wide)),
    readReg s q.1 = q.2.2.extractLsb' 0 64 ∧ readReg s q.2.1 = q.2.2.extractLsb' 64 64) ∧
  (∀ s : State,
    readReg s .cmd = s.cmd ∧ readReg s .addr = s.regs.addr ∧ readReg s .len = s.regs.len ∧
    readReg s .aux = s.regs.aux ∧ readReg s .errAddr = s.errAddr ∧
    (readReg s .ctrl).getLsbD 0 = s.ie ∧ (readReg s .ctrl).getLsbD 1 = s.regs.little ∧
    (readReg s .ctrl).getLsbD 2 = s.regs.w8 ∧ (readReg s .ctrl).extractLsb' 3 61 = 0 ∧
    (readReg s .cfgWidth).extractLsb' 0 8 = s.regs.cfgWidth ∧ (readReg s .cfgWidth).extractLsb' 8 56 = 0 ∧
    (readReg s .cfgFlags).getLsbD 0 = s.regs.refin ∧ (readReg s .cfgFlags).getLsbD 1 = s.regs.refout ∧
    (readReg s .cfgFlags).extractLsb' 2 62 = 0 ∧
    (readReg s .mCfg).extractLsb' 0 8 = s.model.width ∧ (readReg s .mCfg).getLsbD 8 = s.model.ref ∧
    (readReg s .mCfg).getLsbD 9 = s.model.rev ∧ (readReg s .mCfg).extractLsb' 10 54 = 0 ∧
    (readReg s .combInfo).extractLsb' 0 8 = s.combCycle ∧ (readReg s .combInfo).extractLsb' 8 8 = s.combBack ∧
    (readReg s .combInfo).extractLsb' 16 48 = 0 ∧
    (readReg s .wtblInfo).getLsbD 0 = s.wtblLittle ∧ (readReg s .wtblInfo).getLsbD 1 = s.wtblW8 ∧
    (readReg s .wtblInfo).extractLsb' 2 62 = 0) ∧
  (∀ (s : State) (v : Word),
    writeReg s .ctrl v =
      { s with ie := v.getLsbD 0, regs := { s.regs with little := v.getLsbD 1, w8 := v.getLsbD 2 } } ∧
    writeReg s .cfgWidth v = { s with regs := { s.regs with cfgWidth := v.extractLsb' 0 8 } } ∧
    writeReg s .cfgFlags v = { s with regs := { s.regs with refin := v.getLsbD 0, refout := v.getLsbD 1 } } ∧
    writeReg s .cfgPolyLo v = { s with regs := { s.regs with cfgPoly := s.regs.cfgPoly.extractLsb' 64 64 ++ v } } ∧
    writeReg s .cfgPolyHi v = { s with regs := { s.regs with cfgPoly := v ++ s.regs.cfgPoly.extractLsb' 0 64 } } ∧
    writeReg s .cfgInitLo v = { s with regs := { s.regs with cfgInit := s.regs.cfgInit.extractLsb' 64 64 ++ v } } ∧
    writeReg s .cfgInitHi v = { s with regs := { s.regs with cfgInit := v ++ s.regs.cfgInit.extractLsb' 0 64 } } ∧
    writeReg s .cfgXoroutLo v =
      { s with regs := { s.regs with cfgXorout := s.regs.cfgXorout.extractLsb' 64 64 ++ v } } ∧
    writeReg s .cfgXoroutHi v =
      { s with regs := { s.regs with cfgXorout := v ++ s.regs.cfgXorout.extractLsb' 0 64 } } ∧
    writeReg s .opaLo v = { s with regs := { s.regs with opa := s.regs.opa.extractLsb' 64 64 ++ v } } ∧
    writeReg s .opaHi v = { s with regs := { s.regs with opa := v ++ s.regs.opa.extractLsb' 0 64 } } ∧
    writeReg s .opbLo v = { s with regs := { s.regs with opb := s.regs.opb.extractLsb' 64 64 ++ v } } ∧
    writeReg s .opbHi v = { s with regs := { s.regs with opb := v ++ s.regs.opb.extractLsb' 0 64 } } ∧
    writeReg s .addr v = { s with regs := { s.regs with addr := v } } ∧
    writeReg s .len v = { s with regs := { s.regs with len := v } } ∧
    writeReg s .aux v = { s with regs := { s.regs with aux := v } }) ∧
  (∀ (s : State) (v : Word), ∀ r ∈ ([.cfgPolyLo, .cfgPolyHi, .cfgInitLo, .cfgInitHi, .cfgXoroutLo, .cfgXoroutHi,
      .opaLo, .opaHi, .opbLo, .opbHi, .addr, .len, .aux] : List Reg), readReg (writeReg s r v) r = v) ∧
  (∀ (s : State) (r r' : Reg) (v : Word), r ≠ .status → r ≠ .cmd → r' ≠ r →
    readReg (writeReg s r v) r' = readReg s r')

/-- R25: the fields of STATUS stand at their bits, the other bits read 0, and a write changes only DONE and OVR, by
clearing what is written with 1. -/
def Obligations.StatusLayoutAndWrites : Prop :=
  ∀ s : State,
    (readReg s .status).getLsbD 0 = s.busy ∧ (readReg s .status).getLsbD 1 = s.status.done ∧
    (readReg s .status).getLsbD 2 = decide (s.status.err.code ≠ 0) ∧ (readReg s .status).getLsbD 3 = s.status.ovr ∧
    (readReg s .status).extractLsb' 4 4 = 0 ∧
    ((readReg s .status).extractLsb' 8 8).toNat = s.status.err.code ∧
    (readReg s .status).getLsbD 16 = s.status.mvalid ∧ (readReg s .status).getLsbD 17 = s.status.bvalid ∧
    (readReg s .status).getLsbD 18 = s.status.wvalid ∧ (readReg s .status).getLsbD 19 = s.status.cvalid ∧
    (readReg s .status).extractLsb' 20 44 = 0 ∧
    ∀ v : Word, writeReg s .status v =
      { s with status :=
        { s.status with
          done := if v.getLsbD 1 then false else s.status.done
          ovr := if v.getLsbD 3 then false else s.status.ovr } }

/-- R256: IRQ = CTRL.IE AND STATUS.DONE; where it rises and falls; neither OVR nor the error code drives it. -/
def Obligations.InterruptFollowsEnableAndDone : Prop :=
  ∀ s : State,
    s.irq = (s.ie && s.status.done) ∧
    (∀ c : ErrCode, (s.complete c).irq = s.ie) ∧
    (∀ v : Word, (writeReg s .ctrl v).irq = (v.getLsbD 0 && s.status.done)) ∧
    (∀ v : Word, v.getLsbD 1 = true → (writeReg s .status v).irq = false) ∧
    (∀ v : Word, s.busy = false → (writeReg s .cmd v).irq = false) ∧
    (∀ (o : Bool) (c : ErrCode), State.irq { s with status := { s.status with ovr := o, err := c } } = s.irq)

/-- R257: a CMD write while BUSY is dropped and sets OVR; OVR stays 1 until a STATUS write with bit 3 set or a
reset; acceptance and completion do not change it. -/
def Obligations.OverrunIsStickyAndDropsTheWrite : Prop :=
  (∀ (s : State) (v : Word), s.busy = true →
    writeReg s .cmd v = { s with status := { s.status with ovr := true } }) ∧
  (∀ s t : State, step s = .next t → s.status.ovr = true →
    t.status.ovr = true ∨ nextEvent s = .reset ∨
      ∃ a v, nextEvent s = .hostWrite a 8 v ∧ accessedReg s.platform a 8 = some .status ∧ v.getLsbD 3 = true) ∧
  (∀ (s : State) (v : Word), (s.accept v).status.ovr = s.status.ovr) ∧
  (∀ (w : Word) (s t : State), runWord w s = .next t → t.status.ovr = s.status.ovr)

/-- R80: acceptance takes the snapshot and sets BUSY and clears DONE in one step; the command computes from the
snapshot, so later writes of operand, CFG and CTRL registers do not affect it; nothing but its completion or a
reset changes the snapshot, the model or the tables while it runs. -/
def Obligations.CommandsRunOnTheSnapshot : Prop :=
  (∀ (s : State) (v : Word), s.busy = false →
    writeReg s .cmd v =
      { s with
        cmd := v
        inflight := some { word := v, regs := s.regs }
        held := []
        status := { s.status with done := false } }) ∧
  (∀ (i : Instr) (s : State) (r : HostRegs) (b : Bool), s.busy = true →
    exec i { s with regs := r, ie := b } = mapNext (fun t => { t with regs := r, ie := b }) (exec i s)) ∧
  (∀ s t : State, s.busy = true → nextEvent s ≠ .complete → nextEvent s ≠ .reset → step s = .next t →
    t.inflight = s.inflight ∧ t.model = s.model ∧ t.byteTable = s.byteTable ∧ t.wordTable = s.wordTable ∧
      t.combTable = s.combTable ∧ t.combCycle = s.combCycle ∧ t.combBack = s.combBack ∧
      t.wtblLittle = s.wtblLittle ∧ t.wtblW8 = s.wtblW8 ∧ t.status.mvalid = s.status.mvalid ∧
      t.status.bvalid = s.status.bvalid ∧ t.status.wvalid = s.status.wvalid ∧ t.status.cvalid = s.status.cvalid)

/-- R280, R281: after reset, from any state and whether or not a command was in flight, ID and PARAM read their
values, every other register of the window reads 0, no command is in flight and IRQ is 0. -/
def Obligations.ResetClearsEveryRegister : Prop :=
  ∀ s t : State, t = State.reset ∨ t = resetBlock s →
    readReg t .id = 0x0000000143524350 ∧ readReg t .param = 0x0000004003838040 ∧
    (∀ r, r ≠ .id → r ≠ .param → readReg t r = 0) ∧ t.inflight = none ∧ t.irq = false

/-- R83 (which value is used is a free choice, log 6): the byte the engine uses is one of the values the location held
since acceptance. At acceptance there is one, what stands in memory; a write while the command is in flight adds one at
its address and none elsewhere. Busy or idle, a memory write (R70, R81; log 16) puts its byte at its address, leaves every
other byte and the rest of the state but the record of values held; and that record too in an idle block. -/
def Obligations.RacingReadsTakeAValueHeld : Prop :=
  (∀ (s : State) (a : Nat), readByte s a ∈ candidates s a) ∧
  (∀ (s : State) (w : Word) (a : Nat), candidates (s.accept w) a = [memGet s.mem a]) ∧
  (∀ (s : State) (a : Word) (b : Byte), s.busy = true →
    candidates (memoryWrite s a b) a.toNat = b :: candidates s a.toNat ∧
    ∀ x, x ≠ a.toNat → candidates (memoryWrite s a b) x = candidates s x) ∧
  (∀ (s : State) (a : Word) (b : Byte),
    memGet (memoryWrite s a b).mem a.toNat = b ∧
    (∀ x, x ≠ a.toNat → memGet (memoryWrite s a b).mem x = memGet s.mem x) ∧
    memoryWrite s a b = { s with mem := (memoryWrite s a b).mem, held := (memoryWrite s a b).held } ∧
    (s.busy = false → (memoryWrite s a b).held = s.held))

/-! ## Rules of the whole machine -/

/-- R36: the canonical model and MVALID are written only by a successful CANON, or by reset. -/
def Obligations.OnlyCanonWritesTheModel : Prop :=
  ∀ s t : State, step s = .next t → (t.model ≠ s.model ∨ t.status.mvalid ≠ s.status.mvalid) →
    nextEvent s = .reset ∨
      (nextEvent s = .complete ∧ t.status.err = .ok ∧
        ∃ c, s.inflight = some c ∧ decode c.word = .ok .canon)

/-- R33, R34, R285: RESULT is written only at the successful completion of a command that produces a value, and
ERRADDR only by a completion with BUS; reset clears both. -/
def Obligations.OnlyCompletionsWriteResultAndErrAddr : Prop :=
  ∀ s t : State, step s = .next t → nextEvent s ≠ .reset →
    (t.result ≠ s.result →
      nextEvent s = .complete ∧ t.status.err = .ok ∧
        ∃ c i, s.inflight = some c ∧ decode c.word = .ok i ∧
          i ∉ [.nop, .canon, .buildByte, .buildWord, .buildComb]) ∧
    (t.errAddr ≠ s.errAddr → nextEvent s = .complete ∧ t.status.err = .bus)

/-- R43: a table flag implies MVALID and a table built from the model held, and WVALID implies BVALID; a successful
CANON clears all three, each BUILD sets its own, and nothing else changes them except reset. -/
def Obligations.TableFlagsFollowCanonAndBuilds : Prop :=
  (∀ s : State, Inv s →
    (s.status.bvalid = true → s.status.mvalid = true ∧ s.byteTable = builtByteTable s.model) ∧
    (s.status.wvalid = true → s.status.mvalid = true ∧ s.status.bvalid = true ∧
      ∀ n < wordBytes s.wtblW8, s.wordTable.getD n [] =
        builtWordRow s.model (builtByteTable s.model) (wordBytes s.wtblW8) s.wtblLittle n) ∧
    (s.status.cvalid = true → s.status.mvalid = true ∧
      ∀ k < (combSequence s.model).1.length, entry s.combTable k = (combSequence s.model).1.getD k 0)) ∧
  (∀ (i : Instr) (s t : State), exec i s = .next t →
    t.status.bvalid =
      (if t.status.err = .ok ∧ i = .canon then false
       else if t.status.err = .ok ∧ i = .buildByte then true else s.status.bvalid) ∧
    t.status.wvalid =
      (if t.status.err = .ok ∧ i = .canon then false
       else if t.status.err = .ok ∧ i = .buildWord then true else s.status.wvalid) ∧
    t.status.cvalid =
      (if t.status.err = .ok ∧ i = .canon then false
       else if t.status.err = .ok ∧ i = .buildComb then true else s.status.cvalid)) ∧
  (∀ s t : State, step s = .next t →
    (t.status.bvalid ≠ s.status.bvalid ∨ t.status.wvalid ≠ s.status.wvalid ∨ t.status.cvalid ≠ s.status.cvalid) →
    nextEvent s = .reset ∨ (nextEvent s = .complete ∧ t.status.err = .ok ∧
      ∃ c i, s.inflight = some c ∧ decode c.word = .ok i ∧ i ∈ [.canon, .buildByte, .buildWord, .buildComb]))

/-- R252: a command, legal or not, that ends in an error writes ERRCODE, ERR, DONE and BUSY and nothing else, but for ERRADDR on
BUS. (`complete` also drops the snapshot and the model's own record of races.) -/
def Obligations.ErrorsChangeNothingElse : Prop :=
  ∀ (w : Word) (s t : State), runWord w s = .next t → t.status.err ≠ .ok →
    t = State.complete { s with errAddr := t.errAddr } t.status.err ∧
    (t.status.err ≠ .bus → t.errAddr = s.errAddr)

/-- R33, R104, R255, frame of the commands that produce a value: they change RESULT, ERRADDR on BUS, and the
completion's own fields (ERRCODE, DONE, BUSY), and no other register, flag, table or byte of memory. -/
def Obligations.ValueCommandsFrame : Prop :=
  ∀ (i : Instr) (s t : State), i ∉ [.nop, .canon, .buildByte, .buildWord, .buildComb] → exec i s = .next t →
    t = State.complete { s with result := t.result, errAddr := t.errAddr } t.status.err ∧
    (readsOf s i = [] → t.errAddr = s.errAddr) ∧
    t.status.ovr = s.status.ovr ∧ t.regs = s.regs ∧ t.ie = s.ie ∧ t.cmd = s.cmd ∧
    ∀ a, memGet t.mem a = memGet s.mem a

/-- R134, R182, R194, R221, R255, frame of NOP, CANON and the builds: each changes only the state its rule names, and the
completion's own fields; RESULT, ERRADDR, the host's registers and every byte of memory stay. -/
def Obligations.ControlAndBuildFrame : Prop :=
  ∀ s t : State,
    (exec .nop s = .next t → t = s.complete .ok) ∧
    (exec .canon s = .next t →
      t = State.complete
        { s with
          model := t.model, byteTable := t.byteTable, wordTable := t.wordTable, combTable := t.combTable
          status :=
            { s.status with
              mvalid := t.status.mvalid, bvalid := t.status.bvalid, wvalid := t.status.wvalid
              cvalid := t.status.cvalid } }
        t.status.err) ∧
    (exec .buildByte s = .next t →
      t = State.complete
        { s with byteTable := t.byteTable, status := { s.status with bvalid := t.status.bvalid } } t.status.err) ∧
    (exec .buildWord s = .next t →
      t = State.complete
        { s with
          wordTable := t.wordTable, wtblLittle := t.wtblLittle, wtblW8 := t.wtblW8
          status := { s.status with wvalid := t.status.wvalid } }
        t.status.err) ∧
    (exec .buildComb s = .next t →
      t = State.complete
        { s with
          combTable := t.combTable, combCycle := t.combCycle, combBack := t.combBack
          status := { s.status with cvalid := t.status.cvalid } }
        t.status.err) ∧
    ∀ i ∈ ([.nop, .canon, .buildByte, .buildWord, .buildComb] : List Instr), exec i s = .next t →
      ∀ a, memGet t.mem a = memGet s.mem a

/-- R251, R254: the error codes each command can end with; the E = 1 forms make no range check and no read. ZEROS ends
with NOMODEL or without an error (R226) in every state that meets the invariant; that its walk may end with COMBRANGE in
a state outside it, which no run reaches, is the model's (log 15). -/
def Obligations.ErrorCodesOfEachCommand : Prop :=
  (∀ (i : Instr) (s t : State), exec i s = .next t →
    t.status.err ∈
      (match i with
       | .nop => [.ok]
       | .canon => [.ok, .model]
       | .buildByte => [.ok, .noModel, .width]
       | .buildWord => [.ok, .noModel, .width, .noTable]
       | .buildComb => [.ok, .noModel, .width]
       | .crcBit true => [.ok, .noModel]
       | .crcBit false => [.ok, .noModel, .addr, .bus]
       | .crcByte true => [.ok, .noModel, .width, .noTable]
       | .crcByte false => [.ok, .noModel, .width, .noTable, .addr, .bus]
       | .crcWord true => [.ok, .noModel, .width, .noTable]
       | .crcWord false => [.ok, .noModel, .width, .noTable, .addr, .bus]
       | .crcRem => [.ok, .noModel, .arg]
       | .reverse => [.ok, .arg]
       | .mulmod => [.ok, .noModel, .width]
       | .x8n => [.ok, .noModel, .width, .noTable, .combRange]
       | .zeros => [.ok, .noModel, .combRange]
       | .combine => [.ok, .noModel, .width, .noTable, .combRange]
       | .tblrd => [.ok, .noModel, .noTable, .arg] : List ErrCode)) ∧
  (∀ s t : State, Inv s → exec .zeros s = .next t → t.status.err ∈ ([.ok, .noModel] : List ErrCode))

/-- R259, R222: no command completes with COMBRANGE, and CYCLE is 131 whenever BACK says that no cycle was detected,
in every state that meets the invariant. -/
def Obligations.NoCommandEndsWithCombRange : Prop :=
  ∀ s : State, Inv s →
    (s.status.cvalid = true → s.combBack = 0xFF → s.combCycle = 131) ∧
    ∀ (i : Instr) (t : State), exec i s = .next t → t.status.err ≠ .combRange

/-! ## Checks -/

/-- R251, R254: without a canonical model every command but NOP, CANON and REVERSE completes with NOMODEL. -/
def Obligations.CommandsNeedAModel : Prop :=
  ∀ (i : Instr) (s : State), s.status.mvalid = false → i ∉ [.nop, .canon, .reverse] →
    exec i s = .next (s.complete .noModel)

/-- R251, R253, R254: WIDTH before NOTABLE before ADDR. A model wider than 64 bits ends the table and combine commands
with WIDTH whatever the tables are; a missing table ends them with NOTABLE, with E = 1 too (D55); a buffer beyond the
address space ends the buffer commands with ADDR before any read (R78). -/
def Obligations.ChecksInOrderOfPrecedence : Prop :=
  ∀ s : State, s.status.mvalid = true →
    (∀ i : Instr, 64 < s.model.w →
      i ∈ [.buildByte, .buildWord, .buildComb, .crcByte false, .crcByte true, .crcWord false, .crcWord true, .mulmod,
        .x8n, .combine] → exec i s = .next (s.complete .width)) ∧
    (8 * wordBytes s.commandRegs.w8 < s.model.w → exec .buildWord s = .next (s.complete .width)) ∧
    (∀ e : Bool, s.model.w ≤ 64 → s.status.bvalid = false →
      exec (.crcByte e) s = .next (s.complete .noTable)) ∧
    (s.model.w ≤ 64 → s.model.w ≤ 8 * wordBytes s.commandRegs.w8 → s.status.bvalid = false →
      exec .buildWord s = .next (s.complete .noTable)) ∧
    (∀ e : Bool, s.model.w ≤ 64 → s.status.wvalid = false →
      exec (.crcWord e) s = .next (s.complete .noTable)) ∧
    (s.model.w ≤ 64 → s.status.cvalid = false →
      exec .x8n s = .next (s.complete .noTable) ∧ exec .combine s = .next (s.complete .noTable)) ∧
    (2 ^ 64 < opAddr s + opLen s →
      exec (.crcBit false) s = .next (s.complete .addr) ∧
      (s.model.w ≤ 64 → s.status.bvalid = true → exec (.crcByte false) s = .next (s.complete .addr)) ∧
      (s.model.w ≤ 64 → s.status.wvalid = true → exec (.crcWord false) s = .next (s.complete .addr)))

/-- R75, R258, R34: the reads of CRC_BIT, CRC_BYTE and CRC_WORD are those of R75 in that order, and the first that
fails ends the command: one the platform does not answer with BUS and its start address in ERRADDR, one that touches
memory with read side effects with the refusal of U12 (log 7). -/
def Obligations.FirstFailingReadEndsTheCommand : Prop :=
  ∀ (i : Instr) (s : State) (k a n : Nat), bufferChecksPass s i →
    (∀ j < k, ∀ r, (readsOf s i)[j]? = some r → s.answers r) → (readsOf s i)[k]? = some (a, n) →
    (s.platform.admits a n = false → exec i s = raiseBus s a) ∧
    (s.platform.admits a n = true → s.platform.touchesDevice a n = true → exec i s = .refused .readSideEffect)

/-- R70, R75: no command depends on a byte of memory outside its buffer, and none writes memory: with another memory
that agrees on the bytes ADDR .. ADDR + LEN − 1, a command does the same and leaves that memory as it is. -/
def Obligations.CommandsDependOnlyOnTheBuffer : Prop :=
  ∀ (i : Instr) (s : State) (m : List Host.Cell),
    (∀ a, opAddr s ≤ a → a < opAddr s + opLen s → memGet m a = memGet s.mem a) →
    exec i { s with mem := m } = mapNext (fun t => { t with mem := m }) (exec i s)

/-! ## What each command computes -/

/-- R130: a NOP completes and changes nothing but ERRCODE, DONE and BUSY. -/
def Obligations.NopCompletes : Prop :=
  ∀ s : State, exec .nop s = .next (s.complete .ok)

/-- R132, R133, R134, R36: usable CFG values become the held model, MVALID is set and the table flags are cleared,
and the model is canonical; other CFG values end with MODEL and change nothing else. -/
def Obligations.CanonHoldsTheCanonicalModel : Prop :=
  ∀ (s : State) (r : HostRegs) (w : Nat), r = s.commandRegs → w = r.cfgWidth.toNat →
    (1 ≤ w ∧ w ≤ 128 ∧ r.cfgPoly.toNat % 2 = 1 ∧ r.cfgPoly.toNat < 2 ^ w ∧ r.cfgInit.toNat < 2 ^ w ∧
        r.cfgXorout.toNat < 2 ^ w →
      ∃ t, exec .canon s = .next t ∧ t.model.width = r.cfgWidth ∧ t.model.ref = r.refin ∧
        t.model.rev = (r.refin != r.refout) ∧
        t.model.poly.toNat = (if r.refin then bitReverse r.cfgPoly.toNat w else r.cfgPoly.toNat) ∧
        t.model.init.toNat =
          (if r.refout then bitReverse r.cfgInit.toNat w else r.cfgInit.toNat) ^^^ r.cfgXorout.toNat ∧
        t.model.xorout = r.cfgXorout ∧ t.model.Canonical ∧
        t.status = { s.status with
          err := .ok, done := true, mvalid := true, bvalid := false, wvalid := false, cvalid := false } ∧
        t.inflight = none ∧ t.result = s.result ∧ t.combCycle = s.combCycle ∧ t.combBack = s.combBack ∧
        t.wtblLittle = s.wtblLittle ∧ t.wtblW8 = s.wtblW8) ∧
    (¬ (1 ≤ w ∧ w ≤ 128 ∧ r.cfgPoly.toNat % 2 = 1 ∧ r.cfgPoly.toNat < 2 ^ w ∧ r.cfgInit.toNat < 2 ^ w ∧
        r.cfgXorout.toNat < 2 ^ w) → exec .canon s = .next (s.complete .model))

/-- R181, R182: BUILD_BYTE completes with `T[k] = Q(feed(0, k))` for every k, sets BVALID and keeps WVALID, CVALID and
RESULT. -/
def Obligations.BuildByteFillsTheTable : Prop :=
  ∀ s : State, s.status.mvalid = true → s.model.Canonical → s.model.w ≤ 64 →
    ∃ t, exec .buildByte s = .next t ∧ t.status = { s.status with err := .ok, done := true, bvalid := true } ∧
      t.inflight = none ∧ t.result = s.result ∧ t.byteTable.length = 256 ∧
      ∀ k < 256, entry t.byteTable k = alignReg s.model (feed s.model 0 k)

/-- R193, R194: BUILD_WORD completes with, in row n at k, the register after the byte k and n zero bytes from the zero
register, in aligned form and placed for the snapshot's word size and byte order, which WTBL_INFO then holds. -/
def Obligations.BuildWordFillsTheTable : Prop :=
  ∀ (s : State) (b : Nat), Inv s → s.status.bvalid = true → b = wordBytes s.commandRegs.w8 → s.model.w ≤ 8 * b →
    ∃ t, exec .buildWord s = .next t ∧ t.status = { s.status with err := .ok, done := true, wvalid := true } ∧
      t.inflight = none ∧ t.result = s.result ∧ t.wtblLittle = s.commandRegs.little ∧ t.wtblW8 = s.commandRegs.w8 ∧
      ∀ n < b, ∀ k < 256,
        wordEntry t.wordTable n k =
          place s.model b s.commandRegs.little
            (alignReg s.model (feedAll s.model 0 (BitVec.ofNat 8 k :: List.replicate n 0)))

/-- R220, R221: BUILD_COMB completes with `table_comb[k] = x^(2^k) mod p` for k < CYCLE; the entries are pairwise
distinct; with a BACK index the square of the last entry is that entry, and every later power follows the cycle;
without one the table is full. -/
def Obligations.BuildCombFillsTheTable : Prop :=
  ∀ s : State, s.status.mvalid = true → s.model.Canonical → s.model.w ≤ 64 →
    ∃ t cycle, exec .buildComb s = .next t ∧
      t.status = { s.status with err := .ok, done := true, cvalid := true } ∧
      t.inflight = none ∧ t.result = s.result ∧
      t.combCycle.toNat = cycle ∧ 1 ≤ cycle ∧ cycle ≤ 131 ∧
      (∀ k < cycle, entry t.combTable k = polyPower s.model (2 ^ k)) ∧
      (∀ j < cycle, ∀ k < cycle, entry t.combTable j = entry t.combTable k → j = k) ∧
      ((t.combBack = 0xFF ∧ cycle = 131) ∨
        (t.combBack.toNat < cycle ∧
          ∀ k, cycle ≤ k → polyPower s.model (2 ^ k) =
            entry t.combTable (t.combBack.toNat + (k - t.combBack.toNat) % (cycle - t.combBack.toNat))))

/-- R166, R75: CRC_BIT over a buffer whose reads are answered completes with the pipeline CRC of its bytes in
address order from OPA. -/
def Obligations.CrcBitComputesTheCrc : Prop :=
  ∀ s : State, bufferChecksPass s (.crcBit false) → (∀ r ∈ readsOf s (.crcBit false), s.answers r) →
    exec (.crcBit false) s =
      finishValue s (crcFrom s.model (opA s) (readBytes s (opAddr s) (opLen s)))

/-- R186, R184: CRC_BYTE completes with the same value as the bit-serial register. -/
def Obligations.CrcByteComputesTheCrc : Prop :=
  ∀ s : State, Inv s → bufferChecksPass s (.crcByte false) → (∀ r ∈ readsOf s (.crcByte false), s.answers r) →
    exec (.crcByte false) s =
      finishValue s (crcFrom s.model (opA s) (readBytes s (opAddr s) (opLen s)))

/-- R197, R195, R76: CRC_WORD completes with the same value as the bit-serial register, for either word size and
byte order of the table and every alignment of the buffer. -/
def Obligations.CrcWordComputesTheCrc : Prop :=
  ∀ s : State, Inv s → bufferChecksPass s (.crcWord false) → (∀ r ∈ readsOf s (.crcWord false), s.answers r) →
    exec (.crcWord false) s =
      finishValue s (crcFrom s.model (opA s) (readBytes s (opAddr s) (opLen s)))

/-- R101: with E = 1 the buffer commands return M_INIT, whatever OPA, ADDR and LEN are, and read no memory. -/
def Obligations.NoDataFormsReturnInit : Prop :=
  ∀ s : State, s.status.mvalid = true →
    exec (.crcBit true) s = finishValue s s.model.init.toNat ∧
    (s.model.w ≤ 64 → s.status.bvalid = true → exec (.crcByte true) s = finishValue s s.model.init.toNat) ∧
    (s.model.w ≤ 64 → s.status.wvalid = true → exec (.crcWord true) s = finishValue s s.model.init.toNat)

/-- R168: CRC_REM applies AUX further bits of OPB[7:0], bit 0 first when reflected and bit 7 first otherwise; eight
bits are CRC_BIT over the one byte, none leave the CRC, and AUX > 8 is ARG. That a normal model uses the bits
7 .. 8 − AUX follows R168's pseudocode where the spec's own texts differ (DEDUCED, log 19). -/
def Obligations.CrcRemAppliesBits : Prop :=
  ∀ s : State, s.status.mvalid = true →
    (opAux s ≤ 8 →
      exec .crcRem s =
        finishValue s
          (post s.model
            ((List.range (opAux s)).foldl
              (fun r i =>
                if s.model.ref then stepRef s.model r ((opB s).testBit i)
                else stepNorm s.model r ((opB s).testBit (7 - i)))
              (pre s.model (opA s))))) ∧
    (opAux s = 8 → exec .crcRem s = finishValue s (crcFrom s.model (opA s) [BitVec.ofNat 8 (opB s)])) ∧
    (s.model.Canonical → opAux s = 0 → exec .crcRem s = finishValue s (opA s &&& ones s.model.w)) ∧
    (8 < opAux s → exec .crcRem s = .next (s.complete .arg))

/-- R152: REVERSE needs no model: bit i of RESULT is bit AUX − 1 − i of OPA below AUX and 0 from there on, for
AUX ≤ 128; a larger AUX is ARG. -/
def Obligations.ReverseCommandReversesOpa : Prop :=
  ∀ s : State,
    (opAux s ≤ 128 → ∃ t, exec .reverse s = .next t ∧
      t = State.complete { s with result := t.result } .ok ∧
      ∀ i, t.result.getLsbD i = (decide (i < opAux s) && s.commandRegs.opa.getLsbD (opAux s - 1 - i))) ∧
    (128 < opAux s → exec .reverse s = .next (s.complete .arg))

/-- R212, R214: MULMOD completes with the sum, over the coefficients of x^i in OPA, of OPB·x^i modulo p, the bits of
both factors at and above the width ignored. -/
def Obligations.MulmodMultipliesModuloP : Prop :=
  ∀ s : State, s.status.mvalid = true → s.model.w ≤ 64 →
    exec .mulmod s =
      finishValue s
        ((List.range s.model.w).foldl
          (fun acc i =>
            if (opA s &&& ones s.model.w).testBit (if s.model.ref then s.model.w - 1 - i else i)
            then acc ^^^ applyTimes (mulX s.model) i (opB s &&& ones s.model.w) else acc)
          0)

/-- R224, R225: X8N completes with x^(8·LEN) modulo p. -/
def Obligations.X8nComputesThePower : Prop :=
  ∀ s : State, Inv s → s.status.cvalid = true →
    exec .x8n s = finishValue s (polyPower s.model (8 * opLen s))

/-- R226, R227: ZEROS completes, on either path and for every width, with the CRC after LEN zero bits. -/
def Obligations.ZerosAppliesZeroBits : Prop :=
  ∀ s : State, Inv s → s.status.mvalid = true →
    exec .zeros s =
      finishValue s (post s.model (applyTimes (mulX s.model) (opLen s) (pre s.model (opA s))))

/-- R228: COMBINE completes with crc1, taken off the empty-message CRC and multiplied by x^(8·LEN), plus crc2, with
the reversals of a rev model. -/
def Obligations.CombineComputes : Prop :=
  ∀ s : State, Inv s → s.status.cvalid = true →
    exec .combine s =
      finishValue s
        ((if s.model.rev then
            bitReverse
              (multModP s.model (polyPower s.model (8 * opLen s))
                (bitReverse ((opA s &&& ones s.model.w) ^^^ s.model.init.toNat) s.model.w))
              s.model.w
          else
            multModP s.model (polyPower s.model (8 * opLen s))
              ((opA s &&& ones s.model.w) ^^^ s.model.init.toNat))
          ^^^ (opB s &&& ones s.model.w))

/-- R240, R241: TBLRD copies the entry its selector names into RESULT; a missing table is NOTABLE; a malformed
selector (SEL = 3, N ≠ 0 without SEL = 1, a bit of 15:11 or 63:18 set), a row from B on or a comb index from CYCLE on
is ARG. -/
def Obligations.TblrdReadsTheSelectedEntry : Prop :=
  (∀ s : State, s.status.mvalid = true →
    (∃ i, s.commandRegs.aux.getLsbD i = true ∧ (11 ≤ i ∧ i ≤ 15 ∨ 18 ≤ i)) →
    exec .tblrd s = .next (s.complete .arg)) ∧
  ∀ (s : State) (k n sel : Nat), s.status.mvalid = true → k < 256 → n < 8 → sel < 4 →
    opAux s = k + 256 * n + 65536 * sel →
    (sel = 0 → n = 0 →
      exec .tblrd s =
        if s.status.bvalid then finishValue s (entry s.byteTable k) else .next (s.complete .noTable)) ∧
    (sel = 1 →
      exec .tblrd s =
        if s.status.wvalid then
          if n < wordBytes s.wtblW8 then finishValue s (wordEntry s.wordTable n k) else .next (s.complete .arg)
        else .next (s.complete .noTable)) ∧
    (sel = 2 → n = 0 →
      exec .tblrd s =
        if s.status.cvalid then
          if k < s.combCycle.toNat then finishValue s (entry s.combTable k) else .next (s.complete .arg)
        else .next (s.complete .noTable)) ∧
    (sel = 3 ∨ (n ≠ 0 ∧ sel ≠ 1) → exec .tblrd s = .next (s.complete .arg))

/-! ## The arithmetic -/

/-- R150: reverse as the rule's sum; bit by bit; bits of x from n on have no effect; twice is the mask; n = 0 gives 0. -/
def Obligations.ReverseReordersBits : Prop :=
  ∀ x n : Nat,
    bitReverse x n = ∑ i ∈ Finset.range n, (x.testBit i).toNat * 2 ^ (n - 1 - i) ∧
    (∀ i, (bitReverse x n).testBit i = (decide (i < n) && x.testBit (n - 1 - i))) ∧
    (∀ y, y % 2 ^ n = x % 2 ^ n → bitReverse y n = bitReverse x n) ∧
    bitReverse (bitReverse x n) n = x &&& ones n ∧
    bitReverse x 0 = 0

/-- R160, R161, R163, R164: with a canonical model every register and pipeline value stays below 2^w. -/
def Obligations.RegistersStayInsideTheWidth : Prop :=
  ∀ m : Model, m.Canonical → ∀ r < 2 ^ m.w,
    (∀ d, stepBit m r d < 2 ^ m.w) ∧ (∀ b, feed m r b < 2 ^ m.w) ∧ (∀ c, pre m c < 2 ^ m.w) ∧ post m r < 2 ^ m.w

/-- R164: post as the rule gives it, post(pre(c)) = c & ones(w) for every c, and pre(M_INIT) of a model that CANON
makes from usable CFG values is the Williams initial register in the register's bit order. -/
def Obligations.PostUndoesPre : Prop :=
  (∀ (m : Model) (r : Nat), post m r = (if m.rev then bitReverse r m.w else r) ^^^ m.xorout.toNat) ∧
  (∀ m : Model, m.Canonical → ∀ c, post m (pre m c) = c &&& ones m.w) ∧
  (∀ r : HostRegs, usableModel r = true →
    (canonicalModel r).init.toNat =
      (if r.refout then bitReverse r.cfgInit.toNat r.cfgWidth.toNat else r.cfgInit.toNat) ^^^ r.cfgXorout.toNat ∧
    pre (canonicalModel r) (canonicalModel r).init.toNat =
      (if r.refin then bitReverse r.cfgInit.toNat r.cfgWidth.toNat else r.cfgInit.toNat))

/-- R165: the source's three branches of the byte feed give the same register as eight steps, for every register
below 2^w and every byte. -/
def Obligations.ByteFeedEqualsTheThreeBranches : Prop :=
  ∀ m : Model, m.Canonical → ∀ r < 2 ^ m.w, ∀ b < 256, feedByBranches m r b = feed m r b

/-- R166 (corner cases), R164: CRCs over a split message chain, an empty message gives OPA & ones(w), and every CRC
is below 2^w. -/
def Obligations.ChunksOfAMessageChain : Prop :=
  ∀ m : Model, m.Canonical → ∀ (c : Nat) (b₁ b₂ : List Byte),
    crcFrom m (crcFrom m c b₁) b₂ = crcFrom m c (b₁ ++ b₂) ∧ crcFrom m c [] = c &&& ones m.w ∧
      crcFrom m c b₁ < 2 ^ m.w

/-- R184: one table step is eight register steps in aligned form, so CRC_BYTE and CRC_BIT do the same for the same
operands, errors of the reads included. -/
def Obligations.TableStepEqualsByteFeed : Prop :=
  (∀ m : Model, m.Canonical → m.w ≤ 64 → ∀ r < 2 ^ m.w, ∀ b < 256,
    tableStep m (builtByteTable m) (alignReg m r) b = alignReg m (feed m r b)) ∧
  (∀ (s : State) (e : Bool), Inv s → s.status.bvalid = true → exec (.crcByte e) s = exec (.crcBit e) s)

/-- R185: the table is linear with T[0] = 0; T[0x80] is poly when reflected and T[1] is Q(poly) otherwise; the bounds
of its entries. -/
def Obligations.ByteTableProperties : Prop :=
  ∀ (m : Model) (t : List Word), m.Canonical → m.w ≤ 64 → t = builtByteTable m →
    (∀ a < 256, ∀ b < 256, entry t (a ^^^ b) = entry t a ^^^ entry t b) ∧ entry t 0 = 0 ∧
    (m.ref = true → entry t 0x80 = m.poly.toNat) ∧
    (m.ref = false → entry t 1 = alignReg m m.poly.toNat) ∧
    (∀ k < 256, (m.ref = true ∨ 8 ≤ m.w → entry t k < 2 ^ m.w) ∧
      (m.ref = false → m.w < 8 → entry t k < 256 ∧ entry t k % 2 ^ (8 - m.w) = 0))

/-- R191, R192: byte i of swap_B(v) is byte B − 1 − i of v, and swapping twice gives v; place and unplace as the rule
gives them, with the swap exactly when `little` and `ref` differ; unplace undoes place on every aligned register that
fits the word, and both distribute over XOR. -/
def Obligations.SwapAndPlaceAreInvertibleAndLinear : Prop :=
  (∀ b v : Nat, v < 2 ^ (8 * b) →
    (∀ i < b, field (byteSwap v b) (8 * i) 8 = field v (8 * (b - 1 - i)) 8) ∧ byteSwap v b < 2 ^ (8 * b) ∧
      byteSwap (byteSwap v b) b = v) ∧
  (∀ (m : Model) (b top : Nat) (little : Bool), top = (if m.ref then 0 else 8 * b - max m.w 8) →
    ∀ q v : Nat,
      place m b little q = (if little ≠ m.ref then byteSwap (q <<< top) b else q <<< top) ∧
      unplace m b little v = (if little ≠ m.ref then byteSwap v b >>> top else v >>> top)) ∧
  (∀ (m : Model) (b : Nat) (little : Bool), b = 4 ∨ b = 8 → m.w ≤ 8 * b →
    (∀ q < 2 ^ max m.w 8, unplace m b little (place m b little q) = q ∧ place m b little q < 2 ^ (8 * b)) ∧
    (∀ q < 2 ^ max m.w 8, ∀ q' < 2 ^ max m.w 8,
      place m b little (q ^^^ q') = place m b little q ^^^ place m b little q') ∧
    (∀ v < 2 ^ (8 * b), ∀ v' < 2 ^ (8 * b),
      unplace m b little (v ^^^ v') = unplace m b little v ^^^ unplace m b little v'))

/-- R196: when ref and little are 1, or both are 0 and w is the word's width, row 0 of table_word is table_byte, and
placing is the identity (top = 0 and no swap). -/
def Obligations.WordTableRowZeroIsTheByteTable : Prop :=
  ∀ s : State, Inv s → s.status.wvalid = true →
    (s.model.ref = true ∧ s.wtblLittle = true) ∨
      (s.model.ref = false ∧ s.wtblLittle = false ∧ s.model.w = 8 * wordBytes s.wtblW8) →
    (∀ k < 256, wordEntry s.wordTable 0 k = entry s.byteTable k) ∧
      ∀ q, place s.model (wordBytes s.wtblW8) s.wtblLittle q = q

/-- R195, R193: one step of the bulk loop with the built tables advances the register over the B bytes of the word,
for either word size, byte order and direction. -/
def Obligations.WordStepAdvancesOverAWord : Prop :=
  ∀ (m : Model) (b draw : Nat) (little : Bool), m.Canonical → m.w ≤ 64 → b = 4 ∨ b = 8 → m.w ≤ 8 * b →
    ∀ r < 2 ^ m.w, ∀ bs : List Byte, bs.length = b →
      unplace m b little
          (wordStep (builtWordTable m (builtByteTable m) b little draw) b little (place m b little (alignReg m r))
            (wordOfBytes little bs)) =
        alignReg m (feedAll m r bs)

/-- R213: multmodp is commutative and bilinear over XOR, with the unit `one`, the zero 0 and x acting as mulx. -/
def Obligations.MultModPIsACommutativeProduct : Prop :=
  ∀ m : Model, m.Canonical → m.w ≤ 64 → ∀ a b c : Nat,
    multModP m a b = multModP m b a ∧
    multModP m (a ^^^ b) c = multModP m a c ^^^ multModP m b c ∧
    multModP m c (a ^^^ b) = multModP m c a ^^^ multModP m c b ∧
    multModP m (polyOne m) b = b &&& ones m.w ∧
    multModP m 0 b = 0 ∧
    (b < 2 ^ m.w → multModP m (mulX m (polyOne m)) b = mulX m b)

/-- R224: for every n < 2^64, `xnmodp(n, 3)` is x^(8n) and multiplying by `xnmodp(n, 0)` is n zero-input steps. -/
def Obligations.PowerWalkComputesPowers : Prop :=
  ∀ s : State, Inv s → s.status.cvalid = true → ∀ n < 2 ^ 64,
    xnModP s n 3 = some (polyPower s.model (8 * n)) ∧
    ∃ xp, xnModP s n 0 = some xp ∧
      ∀ r < 2 ^ s.model.w, multModP s.model xp r = applyTimes (mulX s.model) n r

/-- R227: with a combine table the table path and the serial path of ZEROS give the same RESULT, and 8·k zero bits are
CRC_BIT over k zero bytes. -/
def Obligations.ZerosPathsAgree : Prop :=
  ∀ s t : State, Inv s → s.status.cvalid = true → exec .zeros s = .next t →
    exec .zeros { s with status := { s.status with cvalid := false } } =
      .next { t with status := { t.status with cvalid := false } } ∧
    ∀ k, opLen s = 8 * k → t.result.toNat = crcFrom s.model (opA s) (List.replicate k 0)

/-- R229: COMBINE of the CRCs of two parts and the length of the second is the CRC of the whole, where the CRC of a
message is what CRC_BIT with OPA = M_INIT returns over it. -/
def Obligations.CombineLaw : Prop :=
  (∀ (s : State) (b₁ b₂ : List Byte), Inv s → s.status.cvalid = true →
    opA s = crcFrom s.model s.model.init.toNat b₁ → opB s = crcFrom s.model s.model.init.toNat b₂ →
    opLen s = b₂.length →
    exec .combine s = finishValue s (crcFrom s.model s.model.init.toNat (b₁ ++ b₂))) ∧
  (∀ s : State, bufferChecksPass s (.crcBit false) → (∀ r ∈ readsOf s (.crcBit false), s.answers r) →
    s.commandRegs.opa = s.model.init →
    exec (.crcBit false) s =
      finishValue s (crcFrom s.model s.model.init.toNat (readBytes s (opAddr s) (opLen s))))
end

