-- ==== Sys2Proof/Laws/Encoding.lean ====
section
/-! SUPPORT. Laws of the command word (spec/30_encoding.md R100 to R107). -/

namespace Sys2Proof

/-- Every term of Instr is well-formed: a constructor carries only what its row defines. -/
theorem Instr.wf_all (i : Instr) : i.wf = true := by
  cases i <;> first | rfl | (next e => cases e <;> rfl)

/-- The number a word made of fields stands for. -/
theorem toWord_toNat (f : CommandFields) :
    f.toWord.toNat = f.op.toNat + 256 * f.e.toNat + 512 * f.rsvd.toNat := by
  have := f.op.isLt
  have := f.rsvd.isLt
  have : f.e.toNat ≤ 1 := Bool.toNat_le f.e
  rw [CommandFields.toWord, BitVec.toNat_ofNat]
  omega

/-- The fields of a word made of fields are those fields (R100). -/
@[simp] theorem commandFields_toWord (f : CommandFields) : commandFields f.toWord = f := by
  have hop := f.op.isLt
  have hr := f.rsvd.isLt
  have he : f.e.toNat ≤ 1 := Bool.toNat_le f.e
  have h := toWord_toNat f
  obtain ⟨op, e, rsvd⟩ := f
  simp only [commandFields, CommandFields.mk.injEq]
  refine ⟨BitVec.eq_of_toNat_eq ?_, ?_, BitVec.eq_of_toNat_eq ?_⟩
  · rw [BitVec.extractLsb'_toNat, h, Nat.shiftRight_eq_div_pow]
    simp only at *
    omega
  · rw [BitVec.getLsbD, h, Nat.testBit_eq_decide_div_mod_eq]
    simp only at *
    cases e <;> simp <;> omega
  · rw [BitVec.extractLsb'_toNat, h, Nat.shiftRight_eq_div_pow]
    simp only at *
    omega

end Sys2Proof
end

