-- ==== Sys2Proof/Laws/Memory.lean ====
section
/-! SUPPORT. Laws of system memory (spec/20_memory.md R70): read after write, and that a write keeps the canonical form. -/

namespace Sys2Proof.Machine

theorem memLookup_memSet_same (m : List Host.Cell) (a : Nat) (b : Byte) : memLookup (memSet m a b) a = some b := by
  induction m with
  | nil => simp [memSet, memLookup]
  | cons c m ih =>
    unfold memSet
    split
    · simp [memLookup]
    · split
      · simp [memLookup]
      · next h => simp [memLookup, ih, Ne.symm h]

theorem memLookup_memSet_other (m : List Host.Cell) {a x : Nat} (b : Byte) (hx : x ≠ a) :
    memLookup (memSet m a b) x = memLookup m x := by
  induction m with
  | nil => simp [memSet, memLookup, Ne.symm hx]
  | cons c m ih =>
    unfold memSet
    split
    · simp [memLookup, Ne.symm hx]
    · split
      · next h => subst h; simp [memLookup, Ne.symm hx]
      · simp [memLookup, ih]

/-- A read after a write to the same place gives the value written. -/
@[simp] theorem memGet_memSet_same (m : List Host.Cell) (a : Nat) (b : Byte) : memGet (memSet m a b) a = b := by
  simp [memGet, memLookup_memSet_same]

/-- A write leaves every other place alone. -/
theorem memGet_memSet_other (m : List Host.Cell) {a x : Nat} (b : Byte) (hx : x ≠ a) :
    memGet (memSet m a b) x = memGet m x := by
  simp [memGet, memLookup_memSet_other m b hx]

/-- What stands in a memory after a write: the cell written, or a cell that stood there at another address. -/
theorem mem_memSet {m : List Host.Cell} {a : Nat} {b : Byte} {c : Host.Cell} (h : c ∈ memSet m a b) :
    c = (a, b) ∨ c ∈ m := by
  induction m with
  | nil => simpa [memSet] using h
  | cons d m ih =>
    unfold memSet at h
    split at h
    · simpa using h
    · split at h
      · rcases List.mem_cons.1 h with h | h
        · exact .inl h
        · exact .inr (List.mem_cons_of_mem _ h)
      · rcases List.mem_cons.1 h with h | h
        · exact .inr (by simp [h])
        · exact (ih h).imp_right (List.mem_cons_of_mem _)

/-- A write inside the address space keeps the canonical form. -/
theorem memSet_wf {m : List Host.Cell} {a : Nat} (b : Byte) (h : Memory.wf m) (ha : a < 2 ^ 64) :
    Memory.wf (memSet m a b) := by
  refine ⟨?_, fun c hc => ?_⟩
  · obtain ⟨h, -⟩ := h
    induction m with
    | nil => simp [memSet]
    | cons c m ih =>
      obtain ⟨hc, hm⟩ := List.pairwise_cons.1 h
      unfold memSet
      split
      · next hlt =>
        refine List.pairwise_cons.2 ⟨fun d hd => ?_, h⟩
        rcases List.mem_cons.1 hd with rfl | hd
        · exact hlt
        · exact hlt.trans (hc d hd)
      · split
        · next heq => exact List.pairwise_cons.2 ⟨fun d hd => heq ▸ hc d hd, hm⟩
        · refine List.pairwise_cons.2 ⟨fun d hd => ?_, ih hm⟩
          rcases mem_memSet hd with rfl | hd
          · simp only; omega
          · exact hc d hd
  · rcases mem_memSet hc with rfl | hc
    · exact ha
    · exact h.2 c hc

/-- Where nothing was written during the command, the engine reads what stands in memory (R83). -/
theorem readByte_of_not_held {s : State} {a : Nat} (h : heldAt s.held a = []) : readByte s a = memGet s.mem a := by
  simp [readByte, h]

@[simp] theorem heldAt_nil (a : Nat) : heldAt [] a = [] := rfl

@[simp] theorem readBytes_length (s : State) (a n : Nat) : (readBytes s a n).length = n := by simp [readBytes]

end Sys2Proof.Machine
end

