-- ==== Sys2Proof/Laws/State.lean ====
section
/-! SUPPORT. One lemma per field per update of State, true by rfl, so that no proof unfolds a record update. -/

namespace Sys2Proof.Machine

/-! ## State.accept -/

@[simp] theorem State.accept_regs (s : State) (w : Word) : (s.accept w).regs = s.regs := rfl
@[simp] theorem State.accept_ie (s : State) (w : Word) : (s.accept w).ie = s.ie := rfl
@[simp] theorem State.accept_status (s : State) (w : Word) : (s.accept w).status = { s.status with done := false } := rfl
@[simp] theorem State.accept_cmd (s : State) (w : Word) : (s.accept w).cmd = w := rfl
@[simp] theorem State.accept_result (s : State) (w : Word) : (s.accept w).result = s.result := rfl
@[simp] theorem State.accept_errAddr (s : State) (w : Word) : (s.accept w).errAddr = s.errAddr := rfl
@[simp] theorem State.accept_model (s : State) (w : Word) : (s.accept w).model = s.model := rfl
@[simp] theorem State.accept_combCycle (s : State) (w : Word) : (s.accept w).combCycle = s.combCycle := rfl
@[simp] theorem State.accept_combBack (s : State) (w : Word) : (s.accept w).combBack = s.combBack := rfl
@[simp] theorem State.accept_wtblLittle (s : State) (w : Word) : (s.accept w).wtblLittle = s.wtblLittle := rfl
@[simp] theorem State.accept_wtblW8 (s : State) (w : Word) : (s.accept w).wtblW8 = s.wtblW8 := rfl
@[simp] theorem State.accept_byteTable (s : State) (w : Word) : (s.accept w).byteTable = s.byteTable := rfl
@[simp] theorem State.accept_wordTable (s : State) (w : Word) : (s.accept w).wordTable = s.wordTable := rfl
@[simp] theorem State.accept_combTable (s : State) (w : Word) : (s.accept w).combTable = s.combTable := rfl
@[simp] theorem State.accept_inflight (s : State) (w : Word) : (s.accept w).inflight = some { word := w, regs := s.regs } := rfl
@[simp] theorem State.accept_mem (s : State) (w : Word) : (s.accept w).mem = s.mem := rfl
@[simp] theorem State.accept_held (s : State) (w : Word) : (s.accept w).held = [] := rfl
@[simp] theorem State.accept_schedule (s : State) (w : Word) : (s.accept w).schedule = s.schedule := rfl
@[simp] theorem State.accept_response (s : State) (w : Word) : (s.accept w).response = s.response := rfl
@[simp] theorem State.accept_platform (s : State) (w : Word) : (s.accept w).platform = s.platform := rfl
@[simp] theorem State.accept_draws (s : State) (w : Word) : (s.accept w).draws = s.draws := rfl

/-! ## State.complete -/

@[simp] theorem State.complete_regs (s : State) (c : ErrCode) : (s.complete c).regs = s.regs := rfl
@[simp] theorem State.complete_ie (s : State) (c : ErrCode) : (s.complete c).ie = s.ie := rfl
@[simp] theorem State.complete_status (s : State) (c : ErrCode) : (s.complete c).status = { s.status with err := c, done := true } := rfl
@[simp] theorem State.complete_cmd (s : State) (c : ErrCode) : (s.complete c).cmd = s.cmd := rfl
@[simp] theorem State.complete_result (s : State) (c : ErrCode) : (s.complete c).result = s.result := rfl
@[simp] theorem State.complete_errAddr (s : State) (c : ErrCode) : (s.complete c).errAddr = s.errAddr := rfl
@[simp] theorem State.complete_model (s : State) (c : ErrCode) : (s.complete c).model = s.model := rfl
@[simp] theorem State.complete_combCycle (s : State) (c : ErrCode) : (s.complete c).combCycle = s.combCycle := rfl
@[simp] theorem State.complete_combBack (s : State) (c : ErrCode) : (s.complete c).combBack = s.combBack := rfl
@[simp] theorem State.complete_wtblLittle (s : State) (c : ErrCode) : (s.complete c).wtblLittle = s.wtblLittle := rfl
@[simp] theorem State.complete_wtblW8 (s : State) (c : ErrCode) : (s.complete c).wtblW8 = s.wtblW8 := rfl
@[simp] theorem State.complete_byteTable (s : State) (c : ErrCode) : (s.complete c).byteTable = s.byteTable := rfl
@[simp] theorem State.complete_wordTable (s : State) (c : ErrCode) : (s.complete c).wordTable = s.wordTable := rfl
@[simp] theorem State.complete_combTable (s : State) (c : ErrCode) : (s.complete c).combTable = s.combTable := rfl
@[simp] theorem State.complete_inflight (s : State) (c : ErrCode) : (s.complete c).inflight = none := rfl
@[simp] theorem State.complete_mem (s : State) (c : ErrCode) : (s.complete c).mem = s.mem := rfl
@[simp] theorem State.complete_held (s : State) (c : ErrCode) : (s.complete c).held = [] := rfl
@[simp] theorem State.complete_schedule (s : State) (c : ErrCode) : (s.complete c).schedule = s.schedule := rfl
@[simp] theorem State.complete_response (s : State) (c : ErrCode) : (s.complete c).response = s.response := rfl
@[simp] theorem State.complete_platform (s : State) (c : ErrCode) : (s.complete c).platform = s.platform := rfl
@[simp] theorem State.complete_draws (s : State) (c : ErrCode) : (s.complete c).draws = s.draws + 1 := rfl

/-! ## State.holdModel -/

@[simp] theorem State.holdModel_regs (s : State) (m : Model) : (s.holdModel m).regs = s.regs := rfl
@[simp] theorem State.holdModel_ie (s : State) (m : Model) : (s.holdModel m).ie = s.ie := rfl
@[simp] theorem State.holdModel_status (s : State) (m : Model) : (s.holdModel m).status = { s.status with mvalid := true, bvalid := false, wvalid := false, cvalid := false } := rfl
@[simp] theorem State.holdModel_cmd (s : State) (m : Model) : (s.holdModel m).cmd = s.cmd := rfl
@[simp] theorem State.holdModel_result (s : State) (m : Model) : (s.holdModel m).result = s.result := rfl
@[simp] theorem State.holdModel_errAddr (s : State) (m : Model) : (s.holdModel m).errAddr = s.errAddr := rfl
@[simp] theorem State.holdModel_model (s : State) (m : Model) : (s.holdModel m).model = m := rfl
@[simp] theorem State.holdModel_combCycle (s : State) (m : Model) : (s.holdModel m).combCycle = s.combCycle := rfl
@[simp] theorem State.holdModel_combBack (s : State) (m : Model) : (s.holdModel m).combBack = s.combBack := rfl
@[simp] theorem State.holdModel_wtblLittle (s : State) (m : Model) : (s.holdModel m).wtblLittle = s.wtblLittle := rfl
@[simp] theorem State.holdModel_wtblW8 (s : State) (m : Model) : (s.holdModel m).wtblW8 = s.wtblW8 := rfl
@[simp] theorem State.holdModel_byteTable (s : State) (m : Model) : (s.holdModel m).byteTable = freeByteTable s.draws := rfl
@[simp] theorem State.holdModel_wordTable (s : State) (m : Model) : (s.holdModel m).wordTable = freeWordTable s.draws := rfl
@[simp] theorem State.holdModel_combTable (s : State) (m : Model) : (s.holdModel m).combTable = freeCombTable s.draws := rfl
@[simp] theorem State.holdModel_inflight (s : State) (m : Model) : (s.holdModel m).inflight = s.inflight := rfl
@[simp] theorem State.holdModel_mem (s : State) (m : Model) : (s.holdModel m).mem = s.mem := rfl
@[simp] theorem State.holdModel_held (s : State) (m : Model) : (s.holdModel m).held = s.held := rfl
@[simp] theorem State.holdModel_schedule (s : State) (m : Model) : (s.holdModel m).schedule = s.schedule := rfl
@[simp] theorem State.holdModel_response (s : State) (m : Model) : (s.holdModel m).response = s.response := rfl
@[simp] theorem State.holdModel_platform (s : State) (m : Model) : (s.holdModel m).platform = s.platform := rfl
@[simp] theorem State.holdModel_draws (s : State) (m : Model) : (s.holdModel m).draws = s.draws := rfl

/-! ## memoryWrite -/

@[simp] theorem memoryWrite_regs (s : State) (a : Word) (b : Byte) : (memoryWrite s a b).regs = s.regs := rfl
@[simp] theorem memoryWrite_ie (s : State) (a : Word) (b : Byte) : (memoryWrite s a b).ie = s.ie := rfl
@[simp] theorem memoryWrite_status (s : State) (a : Word) (b : Byte) : (memoryWrite s a b).status = s.status := rfl
@[simp] theorem memoryWrite_cmd (s : State) (a : Word) (b : Byte) : (memoryWrite s a b).cmd = s.cmd := rfl
@[simp] theorem memoryWrite_result (s : State) (a : Word) (b : Byte) : (memoryWrite s a b).result = s.result := rfl
@[simp] theorem memoryWrite_errAddr (s : State) (a : Word) (b : Byte) : (memoryWrite s a b).errAddr = s.errAddr := rfl
@[simp] theorem memoryWrite_model (s : State) (a : Word) (b : Byte) : (memoryWrite s a b).model = s.model := rfl
@[simp] theorem memoryWrite_combCycle (s : State) (a : Word) (b : Byte) : (memoryWrite s a b).combCycle = s.combCycle := rfl
@[simp] theorem memoryWrite_combBack (s : State) (a : Word) (b : Byte) : (memoryWrite s a b).combBack = s.combBack := rfl
@[simp] theorem memoryWrite_wtblLittle (s : State) (a : Word) (b : Byte) : (memoryWrite s a b).wtblLittle = s.wtblLittle := rfl
@[simp] theorem memoryWrite_wtblW8 (s : State) (a : Word) (b : Byte) : (memoryWrite s a b).wtblW8 = s.wtblW8 := rfl
@[simp] theorem memoryWrite_byteTable (s : State) (a : Word) (b : Byte) : (memoryWrite s a b).byteTable = s.byteTable := rfl
@[simp] theorem memoryWrite_wordTable (s : State) (a : Word) (b : Byte) : (memoryWrite s a b).wordTable = s.wordTable := rfl
@[simp] theorem memoryWrite_combTable (s : State) (a : Word) (b : Byte) : (memoryWrite s a b).combTable = s.combTable := rfl
@[simp] theorem memoryWrite_inflight (s : State) (a : Word) (b : Byte) : (memoryWrite s a b).inflight = s.inflight := rfl
@[simp] theorem memoryWrite_mem (s : State) (a : Word) (b : Byte) : (memoryWrite s a b).mem = memSet s.mem a.toNat b := rfl
@[simp] theorem memoryWrite_held (s : State) (a : Word) (b : Byte) : (memoryWrite s a b).held = if s.busy then (a.toNat, memGet s.mem a.toNat) :: s.held else s.held := rfl
@[simp] theorem memoryWrite_schedule (s : State) (a : Word) (b : Byte) : (memoryWrite s a b).schedule = s.schedule := rfl
@[simp] theorem memoryWrite_response (s : State) (a : Word) (b : Byte) : (memoryWrite s a b).response = s.response := rfl
@[simp] theorem memoryWrite_platform (s : State) (a : Word) (b : Byte) : (memoryWrite s a b).platform = s.platform := rfl
@[simp] theorem memoryWrite_draws (s : State) (a : Word) (b : Byte) : (memoryWrite s a b).draws = s.draws := rfl

/-! ## resetBlock -/

@[simp] theorem resetBlock_regs (s : State) : (resetBlock s).regs = State.reset.regs := rfl
@[simp] theorem resetBlock_ie (s : State) : (resetBlock s).ie = State.reset.ie := rfl
@[simp] theorem resetBlock_status (s : State) : (resetBlock s).status = State.reset.status := rfl
@[simp] theorem resetBlock_cmd (s : State) : (resetBlock s).cmd = State.reset.cmd := rfl
@[simp] theorem resetBlock_result (s : State) : (resetBlock s).result = State.reset.result := rfl
@[simp] theorem resetBlock_errAddr (s : State) : (resetBlock s).errAddr = State.reset.errAddr := rfl
@[simp] theorem resetBlock_model (s : State) : (resetBlock s).model = State.reset.model := rfl
@[simp] theorem resetBlock_combCycle (s : State) : (resetBlock s).combCycle = State.reset.combCycle := rfl
@[simp] theorem resetBlock_combBack (s : State) : (resetBlock s).combBack = State.reset.combBack := rfl
@[simp] theorem resetBlock_wtblLittle (s : State) : (resetBlock s).wtblLittle = State.reset.wtblLittle := rfl
@[simp] theorem resetBlock_wtblW8 (s : State) : (resetBlock s).wtblW8 = State.reset.wtblW8 := rfl
@[simp] theorem resetBlock_byteTable (s : State) : (resetBlock s).byteTable = freeByteTable s.draws := rfl
@[simp] theorem resetBlock_wordTable (s : State) : (resetBlock s).wordTable = freeWordTable s.draws := rfl
@[simp] theorem resetBlock_combTable (s : State) : (resetBlock s).combTable = freeCombTable s.draws := rfl
@[simp] theorem resetBlock_inflight (s : State) : (resetBlock s).inflight = State.reset.inflight := rfl
@[simp] theorem resetBlock_mem (s : State) : (resetBlock s).mem = s.mem := rfl
@[simp] theorem resetBlock_held (s : State) : (resetBlock s).held = State.reset.held := rfl
@[simp] theorem resetBlock_schedule (s : State) : (resetBlock s).schedule = s.schedule := rfl
@[simp] theorem resetBlock_response (s : State) : (resetBlock s).response = s.response := rfl
@[simp] theorem resetBlock_platform (s : State) : (resetBlock s).platform = s.platform := rfl
@[simp] theorem resetBlock_draws (s : State) : (resetBlock s).draws = s.draws + 1 := rfl

end Sys2Proof.Machine
end

