-- ==== Sys2Proof/Laws/Ops.lean ====
section
/-! SUPPORT. One lemma per shared operation, saying once everything it can answer. -/

namespace Sys2Proof.Machine

/-! ## Busy -/

@[simp] theorem accept_busy (s : State) (w : Word) : (s.accept w).busy = true := rfl

@[simp] theorem complete_busy (s : State) (c : ErrCode) : (s.complete c).busy = false := rfl

@[simp] theorem resetBlock_busy (s : State) : (resetBlock s).busy = false := rfl

/-- The command's registers are the snapshot's (R80). -/
theorem commandRegs_of_inflight {s : State} {c : Snapshot} (h : s.inflight = some c) : s.commandRegs = c.regs := by
  simp [State.commandRegs, h]

/-! ## Completions -/

theorem finish_next {s t : State} : finish s = .next t ↔ t = s.complete .ok := by
  simp [finish, eq_comm]

theorem finishValue_next {s t : State} {v : Nat} :
    finishValue s v = .next t ↔ t = State.complete { s with result := BitVec.ofNat 128 v } .ok := by
  simp [finishValue, finish_next]

theorem raiseError_next {s t : State} {c : ErrCode} : raiseError s c = .next t ↔ t = s.complete c := by
  simp [raiseError, eq_comm]

theorem raiseBus_next {s t : State} {a : Nat} :
    raiseBus s a = .next t ↔ t = State.complete { s with errAddr := BitVec.ofNat 64 a } .bus := by
  simp [raiseBus, raiseError_next]

theorem finishRun_next {s t : State} {r : Run Nat} :
    finishRun s r = .next t ↔
      (∃ v, r = .value v ∧ finishValue s v = .next t) ∨ (∃ a, r = .busError a ∧ raiseBus s a = .next t) := by
  cases r <;> simp [finishRun]

theorem finishWalk_next {s t : State} {o : Option Nat} :
    finishWalk s o = .next t ↔
      (∃ v, o = some v ∧ finishValue s v = .next t) ∨ (o = none ∧ t = s.complete .combRange) := by
  cases o <;> simp [finishWalk, raiseError_next]

/-! ## Checks -/

theorem needModel_next {s t : State} {k : StepResult} :
    needModel s k = .next t ↔
      (s.status.mvalid = true ∧ k = .next t) ∨ (s.status.mvalid = false ∧ t = s.complete .noModel) := by
  unfold needModel; split <;> simp_all [raiseError_next]

theorem needWidth_next {s t : State} {l : Nat} {k : StepResult} :
    needWidth s l k = .next t ↔
      (s.model.width.toNat ≤ l ∧ k = .next t) ∨ (¬ s.model.width.toNat ≤ l ∧ t = s.complete .width) := by
  unfold needWidth; split <;> simp_all [raiseError_next]

theorem needTable_next {s t : State} {f : Bool} {k : StepResult} :
    needTable s f k = .next t ↔ (f = true ∧ k = .next t) ∨ (f = false ∧ t = s.complete .noTable) := by
  unfold needTable; split <;> simp_all [raiseError_next]

theorem needArg_next {s t : State} {ok : Bool} {k : StepResult} :
    needArg s ok k = .next t ↔ (ok = true ∧ k = .next t) ∨ (ok = false ∧ t = s.complete .arg) := by
  unfold needArg; split <;> simp_all [raiseError_next]

theorem needBuffer_next {s t : State} {k : StepResult} :
    needBuffer s k = .next t ↔
      (s.commandRegs.addr.toNat + s.commandRegs.len.toNat ≤ 2 ^ 64 ∧ k = .next t) ∨
        (¬ s.commandRegs.addr.toNat + s.commandRegs.len.toNat ≤ 2 ^ 64 ∧ t = s.complete .addr) := by
  unfold needBuffer; split <;> simp_all [raiseError_next]

/-! ## Runs of reads -/

@[simp] theorem Run.bind_value {α β : Type} (v : α) (k : α → Run β) : (Run.value v).bind k = k v := rfl

@[simp] theorem Run.bind_busError {α β : Type} (a : Nat) (k : α → Run β) :
    (Run.busError a : Run α).bind k = .busError a := rfl

@[simp] theorem Run.bind_device {α β : Type} (k : α → Run β) : (Run.device : Run α).bind k = .device := rfl

/-- A run and its continuation end in a value exactly when both do. -/
theorem Run.bind_eq_value {α β : Type} {r : Run α} {k : α → Run β} {v : β} :
    r.bind k = .value v ↔ ∃ x, r = .value x ∧ k x = .value v := by
  cases r <;> simp

/-- An answered read without side effects gives the bytes (R74). -/
theorem memRead_of_answers {s : State} {a n : Nat} (h : s.platform.admits a n = true)
    (hd : s.platform.touchesDevice a n = false) : memRead s a n = .value (readBytes s a n) := by
  simp [memRead, h, hd]

/-- A refused read is a bus error at its start address (R258). -/
theorem memRead_of_refused {s : State} {a n : Nat} (h : s.platform.admits a n = false) :
    memRead s a n = .busError a := by
  simp [memRead, h]

/-- Everything a read can answer. -/
theorem memRead_cases (s : State) (a n : Nat) :
    memRead s a n = .value (readBytes s a n) ∨ memRead s a n = .busError a ∨ memRead s a n = .device := by
  unfold memRead; split <;> [split; skip] <;> simp

/-! ## Step -/

/-- Everything a step can be: one of the five events (R291). -/
theorem step_next {s t : State} (h : step s = .next t) :
    (∃ a n v, nextEvent s = .hostWrite a n v ∧ t = hostWrite { s with schedule := s.schedule.tail } a n v) ∨
    (∃ a n, nextEvent s = .hostRead a n ∧ t = hostRead { s with schedule := s.schedule.tail } a n) ∨
    (nextEvent s = .complete ∧ engineTurn { s with schedule := s.schedule.tail } = .next t) ∨
    (∃ a b, nextEvent s = .memWrite a b ∧ t = memoryWrite { s with schedule := s.schedule.tail } a b) ∨
    (nextEvent s = .reset ∧ t = resetBlock { s with schedule := s.schedule.tail }) := by
  unfold step at h
  cases he : nextEvent s <;> rw [he] at h <;> simp_all [applyEvent]

/-- Everything the engine's turn can be: a command that runs, an illegal word, or an idle block. -/
theorem engineTurn_next {s t : State} (h : engineTurn s = .next t) :
    (∃ c i, s.inflight = some c ∧ decode c.word = .ok i ∧ exec i s = .next t) ∨
    (∃ c e, s.inflight = some c ∧ decode c.word = .error e ∧ t = s.complete .illegal) ∨
    (s.inflight = none ∧ t = s) := by
  unfold engineTurn at h
  cases hc : s.inflight with
  | none => rw [hc] at h; simp_all
  | some c =>
    rw [hc] at h
    simp only [runWord] at h
    cases hd : decode c.word <;> rw [hd] at h <;> simp_all [raiseError_next]

/-! ## The register window -/

/-- What a host write of a register may change: the host registers, IE, OVR and DONE, and, by an acceptance,
CMD and the snapshot. Everything else stays (R72, R284, R288). -/
theorem writeReg_frame (s : State) (r : Reg) (v : Word) :
    writeReg s r v =
      { s with
        regs := (writeReg s r v).regs
        ie := (writeReg s r v).ie
        status :=
          { s.status with done := (writeReg s r v).status.done, ovr := (writeReg s r v).status.ovr }
        cmd := (writeReg s r v).cmd
        inflight := (writeReg s r v).inflight
        held := (writeReg s r v).held } := by
  cases r <;> try rfl
  cases hb : s.busy <;> simp [writeReg, writeCommand, hb, State.accept]

end Sys2Proof.Machine
end

