-- ==== Sys2Proof/Laws/PerInstr.lean ====
section
/-! SUPPORT. Statements for all instructions, one lemma per constructor. -/

namespace Sys2Proof.Laws.WordFormat

/-- The word of a command has the command's opcode, its E flag and RSVD = 0 (R100 to R103, R107). -/
def Statement (i : Instr) : Prop :=
  commandFields (encode i) = { op := i.opcode, e := i.noData, rsvd := 0 } ∧ (encode i).toNat < 512

theorem nop : Statement .nop := by unfold Statement; decide
theorem canon : Statement .canon := by unfold Statement; decide
theorem buildByte : Statement .buildByte := by unfold Statement; decide
theorem buildWord : Statement .buildWord := by unfold Statement; decide
theorem buildComb : Statement .buildComb := by unfold Statement; decide
theorem crcBit (noData : Bool) : Statement (.crcBit noData) := by
  cases noData <;> (unfold Statement; decide)
theorem crcByte (noData : Bool) : Statement (.crcByte noData) := by
  cases noData <;> (unfold Statement; decide)
theorem crcWord (noData : Bool) : Statement (.crcWord noData) := by
  cases noData <;> (unfold Statement; decide)
theorem crcRem : Statement .crcRem := by unfold Statement; decide
theorem reverse : Statement .reverse := by unfold Statement; decide
theorem mulmod : Statement .mulmod := by unfold Statement; decide
theorem x8n : Statement .x8n := by unfold Statement; decide
theorem zeros : Statement .zeros := by unfold Statement; decide
theorem combine : Statement .combine := by unfold Statement; decide
theorem tblrd : Statement .tblrd := by unfold Statement; decide

end Sys2Proof.Laws.WordFormat
end

