-- ==== Sys2Proof/Tests/Slice0.lean ====
section
/-! SUPPORT. Tests. Expected values are the spec's own: spec/95_test_vectors.md and the rules' examples. -/

namespace Sys2Proof.Tests

open Sys2Proof.Machine

/-! ## Decoding: words written out from R100 and R103, RSVD (55 bits), E, OP -/

theorem test_decode_nop : decode 0b0000000000000000000000000000000000000000000000000000000_0_00000000 = .ok .nop := by
  decide
theorem test_decode_canon :
    decode 0b0000000000000000000000000000000000000000000000000000000_0_00000001 = .ok .canon := by decide
theorem test_decode_buildByte :
    decode 0b0000000000000000000000000000000000000000000000000000000_0_00000010 = .ok .buildByte := by decide
theorem test_decode_buildWord :
    decode 0b0000000000000000000000000000000000000000000000000000000_0_00000011 = .ok .buildWord := by decide
theorem test_decode_buildComb :
    decode 0b0000000000000000000000000000000000000000000000000000000_0_00000100 = .ok .buildComb := by decide
theorem test_decode_crcBit :
    decode 0b0000000000000000000000000000000000000000000000000000000_1_00010000 = .ok (.crcBit true) := by decide
theorem test_decode_crcByte :
    decode 0b0000000000000000000000000000000000000000000000000000000_0_00010001 = .ok (.crcByte false) := by decide
theorem test_decode_crcWord :
    decode 0b0000000000000000000000000000000000000000000000000000000_1_00010010 = .ok (.crcWord true) := by decide
theorem test_decode_crcRem :
    decode 0b0000000000000000000000000000000000000000000000000000000_0_00010011 = .ok .crcRem := by decide
theorem test_decode_reverse :
    decode 0b0000000000000000000000000000000000000000000000000000000_0_00100000 = .ok .reverse := by decide
theorem test_decode_mulmod :
    decode 0b0000000000000000000000000000000000000000000000000000000_0_00100001 = .ok .mulmod := by decide
theorem test_decode_x8n :
    decode 0b0000000000000000000000000000000000000000000000000000000_0_00100010 = .ok .x8n := by decide
theorem test_decode_zeros :
    decode 0b0000000000000000000000000000000000000000000000000000000_0_00100011 = .ok .zeros := by decide
theorem test_decode_combine :
    decode 0b0000000000000000000000000000000000000000000000000000000_0_00100100 = .ok .combine := by decide
theorem test_decode_tblrd :
    decode 0b0000000000000000000000000000000000000000000000000000000_0_00110000 = .ok .tblrd := by decide

/-- 95_test_vectors.md section 2.9. -/
theorem test_decode_refuses :
    decode 0x100 = .error .noDataNotAllowed ∧ decode 0x113 = .error .noDataNotAllowed ∧
      decode 0x5 = .error .unassignedOpcode ∧ decode 0x210 = .error .reservedBits ∧
      decode 0x8000000000000010 = .error .reservedBits := by decide

theorem test_decodeTableWord :
    decodeTableWord 64 0x110 = some (.crcBit true) ∧ decodeTableWord 64 0x113 = none := by decide

/-! ## WellFormed smoke: one ill-formed term for each check -/

theorem test_wf_rsvd : CommandFields.wf { op := 0x10, e := false, rsvd := 1 } = false := by decide
theorem test_wf_opcode : CommandFields.wf { op := 0x05, e := false, rsvd := 0 } = false := by decide
theorem test_wf_noData : CommandFields.wf { op := 0x13, e := true, rsvd := 0 } = false := by decide
theorem test_wf_accepts : CommandFields.wf { op := 0x12, e := true, rsvd := 0 } = true := by decide

/-! ## Small states -/

/-- CRC-32/ISO-HDLC after CANON (95_test_vectors.md section 1.1). -/
def iso : Model :=
  { width := 32, ref := true, rev := false, poly := 0xEDB88320, init := 0, xorout := 0xFFFFFFFF }

/-- CRC-16/XMODEM after CANON (P2). -/
def xmodem : Model := { width := 16, ref := false, rev := false, poly := 0x1021, init := 0, xorout := 0 }

/-- CRC-3/GSM after CANON (95_test_vectors.md section 1.1). -/
def gsm : Model := { width := 3, ref := false, rev := false, poly := 3, init := 7, xorout := 7 }

/-- CRC-12/UMTS after CANON: a rev model (P5). -/
def umts : Model := { width := 12, ref := false, rev := true, poly := 0x80F, init := 0, xorout := 0 }

/-- CRC-82/DARC after CANON: wider than a host word. -/
def darc : Model :=
  { width := 82, ref := true, rev := false, poly := 0x220808A00A2022200C430, init := 0, xorout := 0 }

/-- Reset, then the model `m` held. -/
def holding (m : Model) : State :=
  { State.reset with model := m, status := { State.reset.status with mvalid := true } }

/-- `holding m` with table_byte built. -/
def withBytes (m : Model) : State :=
  { holding m with byteTable := builtByteTable m, status := { (holding m).status with bvalid := true } }

/-- `withBytes m` with table_word built. -/
def withWords (m : Model) (w8 little : Bool) : State :=
  { withBytes m with
    wordTable := builtWordTable m (builtByteTable m) (wordBytes w8) little 0
    wtblW8 := w8
    wtblLittle := little
    status := { (withBytes m).status with wvalid := true } }

/-- `s` with a combine table of the given entries, whose walk jumps back to 0. -/
def withComb (s : State) (entries : List Nat) : State :=
  { s with
    combTable := builtCombTable entries 0
    combCycle := BitVec.ofNat 8 entries.length
    combBack := 0
    status := { s.status with cvalid := true } }

/-- `s` with operands OPA, OPB, ADDR, LEN, AUX. -/
def operands (s : State) (a b : Wide) (addr len aux : Word) : State :=
  { s with regs := { s.regs with opa := a, opb := b, addr := addr, len := len, aux := aux } }

/-- The check string "123456789" at `a`. -/
def checkString (a : Nat) : List Host.Cell :=
  [(a, 0x31), (a + 1, 0x32), (a + 2, 0x33), (a + 3, 0x34), (a + 4, 0x35), (a + 5, 0x36), (a + 6, 0x37),
   (a + 7, 0x38), (a + 8, 0x39)]

/-- ERRCODE, RESULT and ERRADDR of an outcome. -/
def seen : StepResult → Option (ErrCode × Wide × Word)
  | .next t => some (t.status.err, t.result, t.errAddr)
  | .fault _ => none
  | .refused _ => none

/-- The next state of an outcome, the reset state where there is none. -/
def after : StepResult → State
  | .next t => t
  | .fault _ => State.reset
  | .refused _ => State.reset

/-! ## One step of each command -/

/-- R130: `run NOP` on a reset block: STATUS reads 0x2 afterwards. -/
theorem test_nop : readReg (after (step (State.reset.withFetchWord 64 0x0))) .status = 0x2 := by decide

/-- 95_test_vectors.md section 2.1: CRC-16/RIELLO, whose init shows the reversal when refout is set. -/
theorem test_canon_riello :
    (after (exec .canon
      { State.reset with
        regs :=
          { State.reset.regs with
            cfgWidth := 16, refin := true, refout := true, cfgPoly := 0x1021, cfgInit := 0xB2AA } })).model =
      { width := 16, ref := true, rev := false, poly := 0x8408, init := 0x554D, xorout := 0 } := by decide

/-- Section 2.1: poly wider than the width is MODEL. -/
theorem test_canon_wide_poly :
    seen (exec .canon { State.reset with regs := { State.reset.regs with cfgWidth := 8, cfgPoly := 0x107 } }) =
      some (.model, 0, 0) := by decide

/-- Section 2.4. -/
theorem test_buildByte_iso :
    (entry (builtByteTable iso) 1, entry (builtByteTable iso) 255) = (0x77073096, 0x2D02EF8D) := by decide

/-- Section 2.4: the aligned form of a model narrower than 8 bits. -/
theorem test_buildByte_gsm :
    let t := after (exec .buildByte (holding gsm))
    t.status.bvalid = true ∧ entry t.byteTable 2 = 0xC0 ∧ entry t.byteTable 3 = 0xA0 := by decide

/-- Section 2.5: CRC-16/XMODEM, B = 4, little and big. -/
theorem test_buildWord_xmodem :
    wordEntry (withWords xmodem false true).wordTable 3 1 = 0xB476 ∧
      wordEntry (withWords xmodem false false).wordTable 1 0x80 = 0x1B980000 := by decide

/-- Section 2.5: WTBL_INFO after CTRL = 2 is 0x1. -/
theorem test_buildWord_info :
    let s := withBytes xmodem
    readReg (after (exec .buildWord { s with regs := { s.regs with little := true } })) .wtblInfo = 0x1 := by decide

/-- Section 2.7: CRC-3/GSM, COMB_INFO 0x0003. -/
theorem test_buildComb_gsm :
    let t := after (exec .buildComb (holding gsm))
    readReg t .combInfo = 0x3 ∧ entry t.combTable 0 = 2 ∧ entry t.combTable 1 = 4 ∧ entry t.combTable 2 = 6 := by
  decide

/-- Section 2.7: p = x² + 1, BACK = 1, COMB_INFO 0x0102. -/
theorem test_buildComb_back :
    readReg (after (exec .buildComb
      (holding { width := 2, ref := false, rev := false, poly := 1, init := 0, xorout := 0 }))) .combInfo = 0x102 := by
  decide

/-- Section 1.1: CRC-3/GSM of the check string from M_INIT. -/
theorem test_crcBit_gsm :
    seen (exec (.crcBit false) { operands (holding gsm) 7 0 0x1000 9 0 with mem := checkString 0x1000 }) =
      some (.ok, 0x4, 0) := by decide +kernel

/-- Section 2.3: CRC-82/DARC of "1". -/
theorem test_crcBit_darc :
    seen (exec (.crcBit false) { operands (holding darc) 0 0 0x1000 1 0 with mem := checkString 0x1000 }) =
      some (.ok, 0x150115554440551047B16, 0) := by decide

/-- P4: a bus error on the fifth byte. -/
theorem test_crcBit_bus :
    seen (exec (.crcBit false)
      { operands (holding { gsm with width := 8, poly := 7, init := 0, xorout := 0 }) 0 0 0x3000 9 0 with
        mem := checkString 0x3000
        platform := { regBase := 0, refused := [{ size := 1, first := 0x3004, last := 0xFFFF }], device := [] } }) =
      some (.bus, 0, 0x3004) := by decide

/-- P1: CRC-32/ISO-HDLC by table_byte. -/
theorem test_crcByte_iso :
    seen (exec (.crcByte false) { operands (withBytes iso) 0 0 0x1000 9 0 with mem := checkString 0x1000 }) =
      some (.ok, 0xCBF43926, 0) := by decide

/-- Section 2.4: E = 1 with BVALID = 0 is NOTABLE. -/
theorem test_crcByte_noTable : seen (exec (.crcByte true) (holding iso)) = some (.noTable, 0, 0) := by decide

/-- P2 and R197's example: CRC-16/XMODEM, B = 8, little, at 0x2007. -/
theorem test_crcWord_xmodem :
    seen (exec (.crcWord false)
      { operands (withWords xmodem true true) 0 0 0x2007 9 0 with mem := checkString 0x2007 }) =
      some (.ok, 0x31C3, 0) := by decide +kernel

/-- Section 2.6: a bus error on the word at 8, B = 4. -/
theorem test_crcWord_bus :
    seen (exec (.crcWord false)
      { operands (withWords xmodem false true) 0 0 7 9 0 with
        mem := checkString 7
        platform := { regBase := 0, refused := [{ size := 4, first := 8, last := 8 }], device := [] } }) =
      some (.bus, 0, 8) := by decide

/-- Section 2.3: the low 4 bits are used when reflected. -/
theorem test_crcRem_iso : seen (exec .crcRem (operands (holding iso) 0 0xF1 0 0 4)) = some (.ok, 0x500AE278, 0) := by
  decide

/-- Section 2.3: the high 4 bits are used otherwise. -/
theorem test_crcRem_xmodem : seen (exec .crcRem (operands (holding xmodem) 0 0xF0 0 0 4)) = some (.ok, 0xF1EF, 0) := by
  decide

/-- Section 2.2. -/
theorem test_reverse_wide :
    seen (exec .reverse (operands State.reset 0x80000000000000000000000000000003 0 0 0 128)) =
      some (.ok, 0xC0000000000000000000000000000001, 0) := by decide +kernel

/-- Section 2.2. -/
theorem test_reverse_arg : seen (exec .reverse (operands State.reset 1 0 0 0 129)) = some (.arg, 0, 0) := by decide

/-- Section 2.7. -/
theorem test_mulmod_iso :
    seen (exec .mulmod (operands (holding iso) 0x12345678 0x9ABCDEF0 0 0 0)) = some (.ok, 0xAA4F5316, 0) := by decide

/-- Section 2.7. -/
theorem test_mulmod_xmodem :
    seen (exec .mulmod (operands (holding xmodem) 0x8000 0x8000 0 0 0)) = some (.ok, 0x0DCC, 0) := by decide +kernel

/-- R225: CRC-3/GSM, CYCLE at the walk's start index: LEN = 5 gives 7. -/
theorem test_x8n_gsm :
    seen (exec .x8n (operands (withComb (holding gsm) [2, 4, 6]) 0 0 0 5 0)) = some (.ok, 0x7, 0) := by decide

/-- Section 2.7: CRC-32/ISO-HDLC, 8 zero bits. -/
theorem test_zeros_iso : seen (exec .zeros (operands (holding iso) 0 0 0 8 0)) = some (.ok, 0xD202EF8D, 0) := by decide

/-- Section 2.7: CRC-3/GSM, 200 zero bits by the combine path. -/
theorem test_zeros_gsm :
    seen (exec .zeros (operands (withComb (holding gsm) [2, 4, 6]) 4 0 0 200 0)) = some (.ok, 0x6, 0) := by decide

/-- Section 2.7: CRC-12/UMTS, a rev model, with the table that BUILD_COMB makes. -/
theorem test_combine_umts :
    seen (exec .combine (operands (after (exec .buildComb (holding umts))) 0x765 0x050 0 4 0)) =
      some (.ok, 0xDAF, 0) := by decide +kernel

/-- P3: CRC-32/ISO-HDLC. -/
theorem test_combine_iso :
    seen (exec .combine (operands (after (exec .buildComb (holding iso))) 0xCBF53A1C 0x9DBABF87 0 4 0)) =
      some (.ok, 0xCBF43926, 0) := by decide +kernel

/-- Section 2.8: CRC-16/XMODEM after BUILD_WORD with CTRL = 6. -/
theorem test_tblrd_word :
    seen (exec .tblrd (operands (withWords xmodem true true) 0 0 0 0 0x10701)) = some (.ok, 0xD347, 0) := by decide +kernel

/-- Section 2.8: k = CYCLE is ARG. -/
theorem test_tblrd_range :
    seen (exec .tblrd (operands (withComb (holding gsm) [2, 4, 6]) 0 0 0 0 0x20003)) = some (.arg, 0, 0) := by decide

/-! ## The window -/

/-- P4: the dropped NOP sets OVR; STATUS reads 0x1030D while the command runs. -/
theorem test_overrun_status :
    let s := holding gsm
    let s := State.accept { s with status := { s.status with err := .model } } 0x10
    readReg (writeReg s .cmd 0) .status = 0x1030D := by decide

/-- R22, R23. -/
theorem test_id_param : readReg State.reset .id = 0x0000000143524350 ∧ readReg State.reset .param = 0x0000004003838040 := by
  decide

/-- R20: registers at their offsets. -/
theorem test_offsets :
    accessedReg State.reset.platform 0x020 8 = some .cmd ∧ accessedReg State.reset.platform 0x0F8 8 = some .wtblInfo ∧
      accessedReg State.reset.platform 0x0B0 8 = some .errAddr ∧ accessedReg State.reset.platform 0x0A4 8 = none := by
  decide

end Sys2Proof.Tests
end

