-- ==== Sys2Proof/Tests/Witnesses.lean ====
section
/-! SUPPORT. For every statement with hypotheses, a concrete state and operands that meet all of them together. -/

namespace Sys2Proof.Tests

open Sys2Proof.Machine

/-! ## States that meet the invariant -/

theorem gsm_canonical : gsm.Canonical := by constructor <;> decide
theorem iso_canonical : iso.Canonical := by constructor <;> decide
theorem xmodem_canonical : xmodem.Canonical := by constructor <;> decide
theorem umts_canonical : umts.Canonical := by constructor <;> decide
theorem darc_canonical : darc.Canonical := by constructor <;> decide

/-- A normal model as wide as a 4-byte word: p = x^32 + 0x04C11DB7. -/
def wide32 : Model := { width := 32, ref := false, rev := false, poly := 0x04C11DB7, init := 0, xorout := 0 }

theorem wide32_canonical : wide32.Canonical := by constructor <;> decide

/-- A model whose squarings do not repeat within 131 entries: p is the product of irreducible polynomials of degrees
2, 3, 5 and 7. -/
def acyclic : Model := { width := 17, ref := false, rev := false, poly := 0x161FF, init := 0, xorout := 0 }

theorem acyclic_canonical : acyclic.Canonical := by constructor <;> decide

/-- A 40-bit model, too wide for 4-byte words. -/
def wide40 : Model := { width := 40, ref := true, rev := false, poly := 0x8000000001, init := 0, xorout := 0 }

theorem freeTables_sized (d : Nat) :
    (freeByteTable d).length = 256 ∧ (freeWordTable d).length = 8 ∧ (∀ row ∈ freeWordTable d, row.length = 256) ∧
      (freeCombTable d).length = 131 := by
  refine ⟨by simp [freeByteTable], by simp [freeWordTable], ?_, by simp [freeCombTable, Config.combEntries]⟩
  intro row h
  obtain ⟨n, -, rfl⟩ := List.mem_map.1 h
  simp [freeWordRow]

theorem builtTables_sized (m : Model) (t : List Word) (b : Nat) (l : Bool) (d : Nat) :
    (builtWordTable m t b l d).length = 8 ∧ ∀ row ∈ builtWordTable m t b l d, row.length = 256 := by
  refine ⟨by simp [builtWordTable], ?_⟩
  intro row h
  obtain ⟨n, -, rfl⟩ := List.mem_map.1 h
  split <;> simp [builtWordRow, freeWordRow]

theorem reset_sized : State.reset.TableSizes :=
  ⟨(freeTables_sized 0).1, (freeTables_sized 0).2.1, (freeTables_sized 0).2.2.1, (freeTables_sized 0).2.2.2⟩

/-- A held canonical model and no table. -/
theorem holding_inv {m : Model} (h : m.Canonical) : Inv (holding m) where
  memory := by simp [Memory.wf, holding, State.reset]
  idle _ := rfl
  busy hb := by simp [holding, State.reset, State.busy] at hb
  command c hc := by simp [holding, State.reset] at hc
  model _ := h
  byteTable hb := by simp [holding, State.reset] at hb
  wordTable hb := by simp [holding, State.reset] at hb
  combTable hb := by simp [holding, State.reset] at hb
  sizes := ⟨reset_sized.byte, reset_sized.word, reset_sized.rows, reset_sized.comb⟩

/-- A held canonical model with table_byte. -/
theorem withBytes_inv {m : Model} (h : m.Canonical) (hw : m.w ≤ 64) : Inv (withBytes m) where
  memory := (holding_inv h).memory
  idle _ := rfl
  busy hb := by simp [withBytes, holding, State.reset, State.busy] at hb
  command c hc := by simp [withBytes, holding, State.reset] at hc
  model _ := h
  byteTable _ := ⟨rfl, hw, rfl⟩
  wordTable hb := by simp [withBytes, holding, State.reset] at hb
  combTable hb := by simp [withBytes, holding, State.reset] at hb
  sizes := ⟨by simp [withBytes, builtByteTable], reset_sized.word, reset_sized.rows, reset_sized.comb⟩

/-- A held canonical model with table_byte and table_word. -/
theorem withWords_inv {m : Model} (h : m.Canonical) (w8 l : Bool) (hw : m.w ≤ 8 * wordBytes w8) :
    Inv (withWords m w8 l) := by
  have hb : wordBytes w8 ≤ 8 := by cases w8 <;> decide
  have hi := withBytes_inv h (by omega)
  exact
    { memory := hi.memory
      idle := fun _ => rfl
      busy := fun hb => by simp [withWords, withBytes, holding, State.reset, State.busy] at hb
      command := fun c hc => by simp [withWords, withBytes, holding, State.reset] at hc
      model := fun _ => h
      byteTable := fun _ => ⟨rfl, by show m.w ≤ 64; omega, rfl⟩
      wordTable := fun _ => ⟨rfl, hw, fun n hn => by
        have hn : n < wordBytes w8 := hn
        show (builtWordTable m (builtByteTable m) (wordBytes w8) l 0).getD n [] = _
        have h8 : n < 8 := by omega
        simp only [builtWordTable, List.getD_eq_getElem?_getD, List.getElem?_map, List.getElem?_range h8,
          Option.map_some, Option.getD_some, hn, if_true]
        rfl⟩
      combTable := fun hb => by simp [withWords, withBytes, holding, State.reset] at hb
      sizes := ⟨hi.sizes.byte, (builtTables_sized _ _ _ _ _).1, (builtTables_sized _ _ _ _ _).2, hi.sizes.comb⟩ }

/-- CRC-3/GSM with all three tables: B = 4, little. -/
def full : State := withComb (withWords gsm false true) [2, 4, 6]

theorem full_inv : Inv full := by
  have hi := withWords_inv gsm_canonical false true (by decide)
  exact
    { memory := hi.memory
      idle := fun _ => rfl
      busy := fun hb => hi.busy hb
      command := fun c hc => hi.command c hc
      model := fun _ => gsm_canonical
      byteTable := fun _ => ⟨rfl, by decide, rfl⟩
      wordTable := fun _ => ⟨rfl, by decide, (hi.wordTable rfl).content⟩
      combTable := fun _ =>
        ⟨rfl, by decide, by decide, by decide, fun k hk => by
          have hk : k < 3 := hk
          interval_cases k <;> decide⟩
      sizes := ⟨hi.sizes.byte, hi.sizes.word, hi.sizes.rows, by
        show (builtCombTable [2, 4, 6] 0).length = 131
        simp [builtCombTable, Config.combEntries]⟩ }

/-- `s` with operands meets the invariant when `s` does. -/
theorem operands_inv {s : State} (h : Inv s) (a b : Wide) (addr len aux : Word) : Inv (operands s a b addr len aux) :=
  ⟨h.memory, h.idle, h.busy, h.command, h.model,
    fun hb => ⟨(h.byteTable hb).model, (h.byteTable hb).fits, (h.byteTable hb).content⟩,
    fun hb => ⟨(h.wordTable hb).byte, (h.wordTable hb).fits, (h.wordTable hb).content⟩,
    fun hb => ⟨(h.combTable hb).model, (h.combTable hb).fits, (h.combTable hb).cycle, (h.combTable hb).back,
      (h.combTable hb).content⟩,
    ⟨h.sizes.byte, h.sizes.word, h.sizes.rows, h.sizes.comb⟩⟩

/-- `full` with operands. -/
def fullWith (a b : Wide) (addr len aux : Word) : State := operands full a b addr len aux

theorem fullWith_inv (a b : Wide) (addr len aux : Word) : Inv (fullWith a b addr len aux) :=
  operands_inv full_inv a b addr len aux

/-- The sequence of the model without a cycle. -/
theorem acyclic_sequence : (combSequence acyclic).1.length = 131 ∧ (combSequence acyclic).2 = none := by
  decide +kernel

/-- The held model without a cycle and its combine table. -/
def acyclicState : State :=
  { holding acyclic with
    combTable := builtCombTable (combSequence acyclic).1 0
    combCycle := 131
    combBack := 0xFF
    status := { (holding acyclic).status with cvalid := true } }

theorem acyclic_entries :
    ∀ k < (combSequence acyclic).1.length, entry acyclicState.combTable k = (combSequence acyclic).1.getD k 0 := by
  decide +kernel

theorem acyclicState_inv : Inv acyclicState := by
  have hi := holding_inv acyclic_canonical
  exact
    { memory := hi.memory
      idle := fun _ => rfl
      busy := fun hb => hi.busy hb
      command := fun c hc => hi.command c hc
      model := fun _ => acyclic_canonical
      byteTable := fun hb => by simp [acyclicState, holding, State.reset] at hb
      wordTable := fun hb => by simp [acyclicState, holding, State.reset] at hb
      combTable := fun _ =>
        ⟨rfl, by decide, acyclic_sequence.1.symm, by
          show (0xFF : BitVec 8).toNat = (combSequence acyclic).2.getD 0xFF
          rw [acyclic_sequence.2]; rfl, acyclic_entries⟩
      sizes := ⟨hi.sizes.byte, hi.sizes.word, hi.sizes.rows, by
        show (builtCombTable _ 0).length = 131
        simp [builtCombTable, Config.combEntries]⟩ }

/-- Acceptance keeps the invariant. -/
theorem accept_inv {s : State} (h : Inv s) (w : Word) : Inv (s.accept w) where
  memory := h.memory
  idle hi := by simp [State.accept] at hi
  busy _ := rfl
  command c hc := by cases hc; rfl
  model := h.model
  byteTable hb := ⟨(h.byteTable hb).model, (h.byteTable hb).fits, (h.byteTable hb).content⟩
  wordTable hb := ⟨(h.wordTable hb).byte, (h.wordTable hb).fits, (h.wordTable hb).content⟩
  combTable hb :=
    ⟨(h.combTable hb).model, (h.combTable hb).fits, (h.combTable hb).cycle, (h.combTable hb).back,
      (h.combTable hb).content⟩
  sizes := ⟨h.sizes.byte, h.sizes.word, h.sizes.rows, h.sizes.comb⟩

/-- Another canonical memory keeps the invariant. -/
theorem memory_inv {s : State} (h : Inv s) {m : List Host.Cell} (hm : Memory.wf m) : Inv { s with mem := m } :=
  ⟨hm, h.idle, h.busy, h.command, h.model,
    fun hb => ⟨(h.byteTable hb).model, (h.byteTable hb).fits, (h.byteTable hb).content⟩,
    fun hb => ⟨(h.wordTable hb).byte, (h.wordTable hb).fits, (h.wordTable hb).content⟩,
    fun hb => ⟨(h.combTable hb).model, (h.combTable hb).fits, (h.combTable hb).cycle, (h.combTable hb).back,
      (h.combTable hb).content⟩,
    ⟨h.sizes.byte, h.sizes.word, h.sizes.rows, h.sizes.comb⟩⟩

/-- A platform that answers every read and has no read side effects. -/
theorem answers_plain {s : State} (hr : s.platform.refused = []) (hd : s.platform.device = []) (r : Nat × Nat) :
    s.answers r := by
  simp [State.answers, Platform.admits, Platform.touchesDevice, hr, hd]

/-! ## The command word and the step -/

theorem witness_DecodeAndEncodeAgree : Instr.wf (.crcWord true) = true ∧ Instr.wf .tblrd = true := by decide

theorem witness_IllegalWordsCompleteWithIllegal :
    State.reset.busy = false ∧ decode 0x5 = .error .unassignedOpcode ∧ decode 0x200 = .error .reservedBits ∧
      decode 0x120 = .error .noDataNotAllowed := by decide

theorem witness_StepRunsTheDecodedCommand :
    (State.reset.withFetchWord 64 0x110).inflight = some { word := 0x110, regs := State.reset.regs } ∧
      nextEvent (State.reset.withFetchWord 64 0x110) = .complete ∧ decode 0x110 = .ok (.crcBit true) := by
  refine ⟨rfl, rfl, by decide⟩

/-- The other turns of the engine: an illegal word in flight, and an idle block. -/
theorem witness_StepRunsTheDecodedCommand_engine :
    ((State.reset.accept 0x5).inflight = some { word := 0x5, regs := State.reset.regs } ∧
      nextEvent (State.reset.accept 0x5) = .complete ∧ decode 0x5 = .error .unassignedOpcode) ∧
    State.reset.inflight = none ∧ State.reset.schedule = [] ∧ nextEvent State.reset = .complete := by
  refine ⟨⟨rfl, rfl, by decide⟩, rfl, rfl, rfl⟩

/-- The four events that are not the engine's. -/
theorem witness_StepRunsTheDecodedCommand_events :
    ∀ e ∈ ([.hostWrite 0x20 8 0x10, .hostRead 0x18 8, .memWrite 0x1000 0x31, .reset] : List Event),
      nextEvent { full with schedule := [e, .complete] } = e :=
  fun _ _ => rfl

/-- A command in flight, and three events before its completion. -/
def waiting : State :=
  { full.accept 0x10 with schedule := [.hostRead 0x18 8, .memWrite 0x10 0x31, .complete, .hostRead 0xA0 8] }

theorem witness_CommandCompletesForEveryDelay :
    waiting.platform.device = [] ∧ waiting.busy = true ∧
      ∀ e ∈ waiting.schedule, e = .complete ∨ (∃ a n, e = .hostRead a n) ∨ (∃ a b, e = .memWrite a b) := by
  refine ⟨rfl, rfl, fun e he => ?_⟩
  simp only [waiting, List.mem_cons, List.not_mem_nil, or_false] at he
  rcases he with rfl | rfl | rfl | rfl <;> simp

theorem witness_EveryStepProceeds : (fullWith 7 0 0x1000 9 0).platform.device = [] := rfl

/-- The invariant on a block that has accepted BUILD_COMB, whose step answers a next state. -/
theorem witness_StepKeepsInvariant :
    Inv (full.accept 0x4) ∧ step (full.accept 0x4) = .next (after (step (full.accept 0x4))) :=
  ⟨accept_inv full_inv _, rfl⟩

theorem witness_ResetMeetsInvariant : Memory.wf (waiting.mem ++ checkString 0x1000) := by
  constructor <;> decide

/-! ## The register window -/

/-- The first and the last register, an offset in between that is no multiple of 8, a narrow access, and accesses that
reach over either end of the window. -/
theorem witness_OnlyAligned64BitAccesses :
    (∀ a ∈ [0x00, 0x20, 0xF8], touchesWindow State.reset.platform a 8 = true ∧
      State.reset.platform.regBase ≤ a ∧ (a - State.reset.platform.regBase) % 8 = 0) ∧
    (∀ p ∈ ([(0x24, 8), (0x20, 4), (0xFF, 1), (0xFC, 8)] : List (Nat × Nat)),
      touchesWindow State.reset.platform p.1 p.2 = true ∧
        ¬ (State.reset.platform.regBase ≤ p.1 ∧ p.2 = 8 ∧ (p.1 - State.reset.platform.regBase) % 8 = 0)) ∧
    touchesWindow { State.reset.platform with regBase := 0x1000 } 0xFFC 8 = true := by decide

theorem witness_ReadOnlyAndReservedWritesIgnored :
    Reg.wtblInfo ∈ ([.id, .param, .resultLo, .resultHi, .errAddr, .mCfg, .mPolyLo, .mPolyHi,
      .mInitLo, .mInitHi, .mXoroutLo, .mXoroutHi, .combInfo, .wtblInfo] : List Reg) ∧
    registerMap[31]? = some .wtblInfo ∧ 0 < 32 ∧ 31 < 32 := by decide

theorem witness_RegistersReadBackWhatWasWritten :
    Reg.aux ∈ ([.cfgPolyLo, .cfgPolyHi, .cfgInitLo, .cfgInitHi, .cfgXoroutLo, .cfgXoroutHi,
      .opaLo, .opaHi, .opbLo, .opbHi, .addr, .len, .aux] : List Reg) ∧
    Reg.opaLo ≠ .status ∧ Reg.opaLo ≠ .cmd ∧ Reg.opaHi ≠ .opaLo := by decide

theorem witness_InterruptFollowsEnableAndDone :
    (0x2 : Word).getLsbD 1 = true ∧ full.busy = false := by decide

/-- OVR set, and kept by a step; a CMD write while BUSY. -/
theorem witness_OverrunIsStickyAndDropsTheWrite :
    let s := writeReg (full.accept 0x1) .cmd 0x0
    (full.accept 0x1).busy = true ∧ s.status.ovr = true ∧ step s = .next (after (step s)) ∧
      runWord 0x0 s = .next (after (runWord 0x0 s)) := by
  refine ⟨rfl, rfl, rfl, rfl⟩

theorem witness_CommandsRunOnTheSnapshot :
    full.busy = false ∧ waiting.busy = true ∧ nextEvent waiting ≠ .complete ∧ nextEvent waiting ≠ .reset ∧
      step waiting = .next (after (step waiting)) := by
  refine ⟨rfl, rfl, ?_, ?_, rfl⟩ <;> decide

/-- Both forms of a block after reset, and a register that is neither ID nor PARAM. -/
theorem witness_ResetClearsEveryRegister :
    (resetBlock waiting = State.reset ∨ resetBlock waiting = resetBlock waiting) ∧ Reg.resultLo ≠ .id ∧
      Reg.resultLo ≠ .param := by
  refine ⟨.inr rfl, ?_, ?_⟩ <;> decide

theorem witness_RacingReadsTakeAValueHeld :
    (full.accept 0x10).busy = true ∧ full.busy = false ∧ 0x1001 ≠ (0x1000 : Word).toNat := by
  refine ⟨rfl, rfl, by decide⟩

/-! ## Rules of the whole machine -/

/-- A block with usable CFG values that has accepted CANON. -/
def canonRuns : State :=
  State.accept
    { State.reset with
      regs := { State.reset.regs with cfgWidth := 3, cfgPoly := 3, cfgInit := 0, cfgXorout := 7 } } 0x1

theorem witness_OnlyCanonWritesTheModel :
    step canonRuns = .next (after (step canonRuns)) ∧
      (after (step canonRuns)).model ≠ canonRuns.model ∧
      (after (step canonRuns)).status.mvalid ≠ canonRuns.status.mvalid := by
  refine ⟨rfl, ?_, ?_⟩ <;> decide

/-- Reset over a held model is the other way the model changes. -/
theorem witness_OnlyCanonWritesTheModel_reset :
    let s := { full with schedule := [.reset] }
    step s = .next (after (step s)) ∧ (after (step s)).model ≠ s.model := by
  refine ⟨rfl, by decide⟩

/-- A command that has read its byte, and one whose read fails. -/
def failing : State :=
  { State.accept (fullWith 7 0 0x3000 1 0) 0x10 with
    platform := { regBase := 0, refused := [{ size := 1, first := 0x3000, last := 0x3000 }], device := [] } }

theorem witness_OnlyCompletionsWriteResultAndErrAddr :
    (let s := State.accept (fullWith 7 0 0 0 0) 0x110
     step s = .next (after (step s)) ∧ nextEvent s ≠ .reset ∧ (after (step s)).result ≠ s.result) ∧
    step failing = .next (after (step failing)) ∧ nextEvent failing ≠ .reset ∧
      (after (step failing)).errAddr ≠ failing.errAddr := by
  refine ⟨⟨rfl, by decide, by decide⟩, rfl, by decide, by decide⟩

/-- All three tables valid; a BUILD that answers; a step that changes a flag. -/
theorem witness_TableFlagsFollowCanonAndBuilds :
    (Inv full ∧ full.status.bvalid = true ∧ full.status.wvalid = true ∧ full.status.cvalid = true) ∧
    exec .buildByte (holding gsm) = .next (after (exec .buildByte (holding gsm))) ∧
    (let s := State.accept (holding gsm) 0x2
     step s = .next (after (step s)) ∧ (after (step s)).status.bvalid ≠ s.status.bvalid) := by
  refine ⟨⟨full_inv, rfl, rfl, rfl⟩, rfl, rfl, by decide⟩

theorem witness_ErrorsChangeNothingElse :
    (runWord 0x10 failing = .next (after (runWord 0x10 failing)) ∧
      (after (runWord 0x10 failing)).status.err = .bus) ∧
    (runWord 0x13 (fullWith 0 0 0 0 9) = .next (after (runWord 0x13 (fullWith 0 0 0 0 9))) ∧
      (after (runWord 0x13 (fullWith 0 0 0 0 9))).status.err = .arg) ∧
    (runWord 0x5 full = .next (after (runWord 0x5 full)) ∧ (after (runWord 0x5 full)).status.err = .illegal) := by
  refine ⟨⟨rfl, by decide⟩, ⟨rfl, by decide⟩, rfl, by decide⟩

theorem witness_ValueCommandsFrame :
    Instr.crcRem ∉ [.nop, .canon, .buildByte, .buildWord, .buildComb] ∧
      exec .crcRem (fullWith 4 0xA0 0 0 3) = .next (after (exec .crcRem (fullWith 4 0xA0 0 0 3))) ∧
      readsOf (fullWith 4 0xA0 0 0 3) .crcRem = [] := by
  refine ⟨by decide, rfl, rfl⟩

theorem witness_ControlAndBuildFrame :
    ∀ i ∈ ([.nop, .canon, .buildByte, .buildWord, .buildComb] : List Instr),
      exec i full = .next (after (exec i full)) := by
  intro i hi
  simp only [List.mem_cons, List.not_mem_nil, or_false] at hi
  rcases hi with rfl | rfl | rfl | rfl | rfl <;> rfl

theorem witness_ErrorCodesOfEachCommand :
    exec .tblrd (fullWith 0 0 0 0 1) = .next (after (exec .tblrd (fullWith 0 0 0 0 1))) ∧
      Inv (fullWith 4 0 0 200 0) ∧
      exec .zeros (fullWith 4 0 0 200 0) = .next (after (exec .zeros (fullWith 4 0 0 200 0))) :=
  ⟨rfl, fullWith_inv _ _ _ _ _, rfl⟩

/-- A table without a cycle, and a walk that runs. -/
theorem witness_NoCommandEndsWithCombRange :
    let s := operands acyclicState 0 0 0 1 0
    Inv s ∧ s.status.cvalid = true ∧ s.combBack = 0xFF ∧ exec .x8n s = .next (after (exec .x8n s)) := by
  refine ⟨operands_inv acyclicState_inv _ _ _ _ _, rfl, rfl, rfl⟩

/-! ## Checks -/

theorem witness_CommandsNeedAModel :
    State.reset.status.mvalid = false ∧ Instr.tblrd ∉ [.nop, .canon, .reverse] := by
  refine ⟨rfl, by decide⟩

theorem witness_ChecksInOrderOfPrecedence_width :
    (holding darc).status.mvalid = true ∧ 64 < (holding darc).model.w ∧
      (holding wide40).status.mvalid = true ∧
      8 * wordBytes (holding wide40).commandRegs.w8 < (holding wide40).model.w := by
  decide

theorem witness_ChecksInOrderOfPrecedence_table :
    (holding gsm).status.mvalid = true ∧ (holding gsm).model.w ≤ 64 ∧ (holding gsm).status.bvalid = false ∧
      (holding gsm).model.w ≤ 8 * wordBytes (holding gsm).commandRegs.w8 ∧ (holding gsm).status.wvalid = false ∧
      (holding gsm).status.cvalid = false := by
  decide

/-- The shortest buffer that passes the end of the address space. -/
theorem witness_ChecksInOrderOfPrecedence_buffer :
    let s := fullWith 7 0 0xFFFFFFFFFFFFFFFF 2 0
    s.status.mvalid = true ∧ 2 ^ 64 < opAddr s + opLen s ∧ s.model.w ≤ 64 ∧ s.status.bvalid = true ∧
      s.status.wvalid = true := by
  refine ⟨rfl, by decide, by decide, rfl, rfl⟩

/-- P4's state: four bytes are answered, the fifth is not. -/
def fifthFails : State :=
  { fullWith 7 0 0x3000 9 0 with
    mem := checkString 0x3000
    platform := { regBase := 0, refused := [{ size := 1, first := 0x3004, last := 0xFFFF }], device := [] } }

theorem witness_FirstFailingReadEndsTheCommand_bus :
    bufferChecksPass fifthFails (.crcBit false) ∧
      (∀ j < 4, ∀ r, (readsOf fifthFails (.crcBit false))[j]? = some r → fifthFails.answers r) ∧
      (readsOf fifthFails (.crcBit false))[4]? = some (0x3004, 1) ∧
      fifthFails.platform.admits 0x3004 1 = false := by
  refine ⟨⟨rfl, by decide⟩, ?_, rfl, by decide⟩
  intro j hj r hr
  interval_cases j <;> cases hr <;> exact ⟨by decide, by decide⟩

/-- A word read of CRC_WORD that touches a device, after one byte of prologue. -/
def deviceWord : State :=
  { fullWith 7 0 7 9 0 with platform := { regBase := 0, refused := [], device := [{ first := 10, last := 20 }] } }

theorem witness_FirstFailingReadEndsTheCommand_device :
    bufferChecksPass deviceWord (.crcWord false) ∧
      (∀ j < 1, ∀ r, (readsOf deviceWord (.crcWord false))[j]? = some r → deviceWord.answers r) ∧
      (readsOf deviceWord (.crcWord false))[1]? = some (8, 4) ∧
      deviceWord.platform.admits 8 4 = true ∧ deviceWord.platform.touchesDevice 8 4 = true := by
  refine ⟨⟨rfl, by decide, rfl, by decide⟩, ?_, rfl, by decide, by decide⟩
  intro j hj r hr
  interval_cases j
  cases hr
  exact ⟨by decide, by decide⟩

/-- Another memory that agrees on the buffer and differs beside it. -/
theorem witness_CommandsDependOnlyOnTheBuffer :
    let s := { fullWith 7 0 0x1000 1 0 with mem := [(0x1000, 0x31), (0x1001, 0x32)] }
    (∀ a, opAddr s ≤ a → a < opAddr s + opLen s →
      memGet [(0x1000, 0x31), (0x1001, 0x99)] a = memGet s.mem a) ∧
    memGet [(0x1000, 0x31), (0x1001, 0x99)] 0x1001 ≠ memGet s.mem 0x1001 := by
  refine ⟨fun a h₁ h₂ => ?_, by decide⟩
  have h₁ : 0x1000 ≤ a := h₁
  have h₂ : a < 0x1000 + 1 := h₂
  obtain rfl : a = 0x1000 := by omega
  rfl

/-! ## What each command computes -/

/-- The narrowest and the widest usable model, and CFG values that are not usable (reset's width 0, and width 129). -/
theorem witness_CanonHoldsTheCanonicalModel :
    (∀ w ∈ ([1, 128] : List (BitVec 8)),
      let s := { State.reset with regs := { State.reset.regs with cfgWidth := w, cfgPoly := 1, refin := true } }
      1 ≤ s.commandRegs.cfgWidth.toNat ∧ s.commandRegs.cfgWidth.toNat ≤ 128 ∧ s.commandRegs.cfgPoly.toNat % 2 = 1 ∧
        s.commandRegs.cfgPoly.toNat < 2 ^ s.commandRegs.cfgWidth.toNat ∧
        s.commandRegs.cfgInit.toNat < 2 ^ s.commandRegs.cfgWidth.toNat ∧
        s.commandRegs.cfgXorout.toNat < 2 ^ s.commandRegs.cfgWidth.toNat) ∧
    (∀ w ∈ ([0, 129] : List (BitVec 8)), ¬ (1 ≤ w.toNat ∧ w.toNat ≤ 128)) := by
  decide

theorem witness_BuildByteFillsTheTable :
    (holding gsm).status.mvalid = true ∧ (holding gsm).model.Canonical ∧ (holding gsm).model.w ≤ 64 :=
  ⟨rfl, gsm_canonical, by decide⟩

/-- A model as wide as its word, and a narrow one. -/
theorem witness_BuildWordFillsTheTable :
    (Inv (withBytes wide32) ∧ (withBytes wide32).status.bvalid = true ∧
      4 = wordBytes (withBytes wide32).commandRegs.w8 ∧ (withBytes wide32).model.w ≤ 8 * 4) ∧
    Inv full ∧ full.status.bvalid = true ∧ 4 = wordBytes full.commandRegs.w8 ∧ full.model.w ≤ 8 * 4 :=
  ⟨⟨withBytes_inv wide32_canonical (by decide), rfl, rfl, by decide⟩, full_inv, rfl, rfl, by decide⟩

/-- A model whose powers cycle, and one whose table fills. -/
theorem witness_BuildCombFillsTheTable :
    ((holding gsm).status.mvalid = true ∧ (holding gsm).model.Canonical ∧ (holding gsm).model.w ≤ 64) ∧
    (holding acyclic).status.mvalid = true ∧ (holding acyclic).model.Canonical ∧ (holding acyclic).model.w ≤ 64 :=
  ⟨⟨rfl, gsm_canonical, by decide⟩, rfl, acyclic_canonical, by decide⟩

/-- A wide model over a buffer that ends with the address space. -/
theorem witness_CrcBitComputesTheCrc :
    let s := operands (holding darc) 0 0 0xFFFFFFFFFFFFFFFE 2 0
    bufferChecksPass s (.crcBit false) ∧ ∀ r ∈ readsOf s (.crcBit false), s.answers r :=
  ⟨⟨rfl, by decide⟩, fun r _ => answers_plain rfl rfl r⟩

theorem witness_CrcByteComputesTheCrc :
    let s := { fullWith 7 0 0x1000 9 0 with mem := checkString 0x1000 }
    Inv s ∧ bufferChecksPass s (.crcByte false) ∧ ∀ r ∈ readsOf s (.crcByte false), s.answers r :=
  ⟨memory_inv (fullWith_inv _ _ _ _ _) (by constructor <;> decide), ⟨rfl, by decide, rfl, by decide⟩,
    fun r _ => answers_plain rfl rfl r⟩

/-- An unaligned buffer with prologue, bulk and tail, B = 4 and B = 8. -/
theorem witness_CrcWordComputesTheCrc :
    (let s := { fullWith 7 0 0x1003 9 0 with mem := checkString 0x1003 }
     Inv s ∧ bufferChecksPass s (.crcWord false) ∧ ∀ r ∈ readsOf s (.crcWord false), s.answers r) ∧
    (let s := operands (withWords xmodem true true) 0 0 0x2007 9 0
     Inv s ∧ bufferChecksPass s (.crcWord false) ∧ ∀ r ∈ readsOf s (.crcWord false), s.answers r) :=
  ⟨⟨memory_inv (fullWith_inv _ _ _ _ _) (by constructor <;> decide), ⟨rfl, by decide, rfl, by decide⟩,
      fun r _ => answers_plain rfl rfl r⟩,
    operands_inv (withWords_inv xmodem_canonical _ _ (by decide)) _ _ _ _ _, ⟨rfl, by decide, rfl, by decide⟩,
    fun r _ => answers_plain rfl rfl r⟩

theorem witness_NoDataFormsReturnInit :
    full.status.mvalid = true ∧ full.model.w ≤ 64 ∧ full.status.bvalid = true ∧ full.status.wvalid = true :=
  ⟨rfl, by decide, rfl, rfl⟩

/-- AUX = 0, 8 and 9. -/
theorem witness_CrcRemAppliesBits :
    full.status.mvalid = true ∧ full.model.Canonical ∧ opAux (fullWith 0 0 0 0 0) = 0 ∧
      opAux (fullWith 0 0 0 0 8) = 8 ∧ 8 < opAux (fullWith 0 0 0 0 9) :=
  ⟨rfl, gsm_canonical, rfl, rfl, by decide⟩

theorem witness_ReverseCommandReversesOpa :
    opAux (operands State.reset 1 0 0 0 128) ≤ 128 ∧ 128 < opAux (operands State.reset 1 0 0 0 129) := by decide

theorem witness_MulmodMultipliesModuloP : (holding iso).status.mvalid = true ∧ (holding iso).model.w ≤ 64 :=
  ⟨rfl, by decide⟩

theorem witness_X8nComputesThePower :
    (Inv (fullWith 0 0 0 0xFFFFFFFFFFFFFFFF 0) ∧ (fullWith 0 0 0 0xFFFFFFFFFFFFFFFF 0).status.cvalid = true) ∧
    Inv acyclicState ∧ acyclicState.status.cvalid = true :=
  ⟨⟨fullWith_inv _ _ _ _ _, rfl⟩, acyclicState_inv, rfl⟩

/-- With the table, without it, and for a model too wide for one. -/
theorem witness_ZerosAppliesZeroBits :
    (Inv (fullWith 4 0 0 200 0) ∧ (fullWith 4 0 0 200 0).status.mvalid = true) ∧
    (Inv (holding gsm) ∧ (holding gsm).status.mvalid = true) ∧ Inv (holding darc) ∧ (holding darc).status.mvalid = true :=
  ⟨⟨fullWith_inv _ _ _ _ _, rfl⟩, ⟨holding_inv gsm_canonical, rfl⟩, holding_inv darc_canonical, rfl⟩

/-- The combine table of CRC-12/UMTS, a rev model. -/
def umtsComb : State :=
  { holding umts with
    combTable := builtCombTable (combSequence umts).1 0
    combCycle := BitVec.ofNat 8 (combSequence umts).1.length
    combBack := BitVec.ofNat 8 ((combSequence umts).2.getD 0xFF)
    status := { (holding umts).status with cvalid := true } }

theorem umtsComb_inv : Inv umtsComb := by
  have hi := holding_inv umts_canonical
  exact
    { memory := hi.memory
      idle := fun _ => rfl
      busy := fun hb => hi.busy hb
      command := fun c hc => hi.command c hc
      model := fun _ => umts_canonical
      byteTable := fun hb => by simp [umtsComb, holding, State.reset] at hb
      wordTable := fun hb => by simp [umtsComb, holding, State.reset] at hb
      combTable := fun _ => ⟨rfl, by decide, by decide +kernel, by decide +kernel, by decide +kernel⟩
      sizes := ⟨hi.sizes.byte, hi.sizes.word, hi.sizes.rows, by
        show (builtCombTable _ 0).length = 131
        simp [builtCombTable, Config.combEntries]⟩ }

theorem witness_CombineComputes :
    (Inv full ∧ full.status.cvalid = true) ∧ Inv umtsComb ∧ umtsComb.status.cvalid = true ∧ umtsComb.model.rev = true :=
  ⟨⟨full_inv, rfl⟩, umtsComb_inv, rfl, rfl⟩

/-- Each selector at the last value that has an entry and at the first that has none, and the malformed ones. -/
theorem witness_TblrdReadsTheSelectedEntry :
    (full.status.mvalid = true ∧ full.status.bvalid = true ∧ full.status.wvalid = true ∧ full.status.cvalid = true) ∧
    (∀ p ∈ ([(255, 0, 0), (255, 3, 1), (255, 4, 1), (255, 7, 1), (2, 0, 2), (3, 0, 2), (0, 0, 3), (0, 1, 0), (0, 7, 2)] :
        List (Nat × Nat × Nat)),
      p.1 < 256 ∧ p.2.1 < 8 ∧ p.2.2 < 4 ∧
        opAux (fullWith 0 0 0 0 (BitVec.ofNat 64 (p.1 + 256 * p.2.1 + 65536 * p.2.2))) =
          p.1 + 256 * p.2.1 + 65536 * p.2.2) ∧
    (∀ i ∈ [11, 15, 18, 63],
      (fullWith 0 0 0 0 (BitVec.twoPow 64 i)).commandRegs.aux.getLsbD i = true ∧ (11 ≤ i ∧ i ≤ 15 ∨ 18 ≤ i)) := by
  refine ⟨⟨rfl, rfl, rfl, rfl⟩, ?_, ?_⟩ <;> decide

/-! ## The arithmetic -/

theorem witness_ReverseReordersBits : 0x1B % 2 ^ 4 = 0xB % 2 ^ 4 := by decide

theorem witness_RegistersStayInsideTheWidth : gsm.Canonical ∧ 7 < 2 ^ gsm.w ∧ darc.Canonical :=
  ⟨gsm_canonical, by decide, darc_canonical⟩

theorem witness_PostUndoesPre :
    umts.Canonical ∧ umts.rev = true ∧
      usableModel { State.reset.regs with cfgWidth := 12, cfgPoly := 0x80F, cfgInit := 1, refout := true } = true :=
  ⟨umts_canonical, rfl, by decide⟩

/-- One model for each of the three branches. -/
theorem witness_ByteFeedEqualsTheThreeBranches :
    (iso.Canonical ∧ iso.ref = true ∧ 0xFFFFFFFF < 2 ^ iso.w) ∧ (gsm.Canonical ∧ gsm.w ≤ 8 ∧ 7 < 2 ^ gsm.w) ∧
      (umts.Canonical ∧ umts.ref = false ∧ 8 < umts.w) ∧ 255 < 256 :=
  ⟨⟨iso_canonical, rfl, by decide⟩, ⟨gsm_canonical, by decide, by decide⟩, ⟨umts_canonical, rfl, by decide⟩, by decide⟩

theorem witness_ChunksOfAMessageChain : umts.Canonical := umts_canonical

theorem witness_TableStepEqualsByteFeed :
    (gsm.Canonical ∧ gsm.w ≤ 64 ∧ 7 < 2 ^ gsm.w ∧ 255 < 256) ∧ (iso.Canonical ∧ iso.w ≤ 64) ∧
      Inv (fullWith 7 0 0x1000 9 0) ∧ (fullWith 7 0 0x1000 9 0).status.bvalid = true :=
  ⟨⟨gsm_canonical, by decide, by decide, by decide⟩, ⟨iso_canonical, by decide⟩, fullWith_inv _ _ _ _ _, rfl⟩

/-- Reflected, and normal below and from 8 bits on. -/
theorem witness_ByteTableProperties :
    (iso.Canonical ∧ iso.w ≤ 64 ∧ iso.ref = true) ∧ (gsm.Canonical ∧ gsm.w ≤ 64 ∧ gsm.ref = false ∧ gsm.w < 8) ∧
      (xmodem.Canonical ∧ xmodem.w ≤ 64 ∧ xmodem.ref = false ∧ 8 ≤ xmodem.w) :=
  ⟨⟨iso_canonical, by decide, rfl⟩, ⟨gsm_canonical, by decide, rfl, by decide⟩, xmodem_canonical, by decide, rfl,
    by decide⟩

theorem witness_SwapAndPlaceAreInvertibleAndLinear :
    24 = (if gsm.ref then 0 else 8 * 4 - max gsm.w 8) ∧ 0x12345678 < 2 ^ (8 * 4) ∧ 3 < 4 ∧ gsm.w ≤ 8 * 4 ∧ 0xE0 < 2 ^ max gsm.w 8 ∧ wide32.w ≤ 8 * 4 ∧
      0xFFFFFFFF < 2 ^ max wide32.w 8 ∧ wide40.w ≤ 8 * 8 := by
  decide

theorem witness_WordTableRowZeroIsTheByteTable :
    (Inv (withWords iso false true) ∧ (withWords iso false true).status.wvalid = true ∧
      (withWords iso false true).model.ref = true ∧ (withWords iso false true).wtblLittle = true) ∧
    Inv (withWords wide32 false false) ∧ (withWords wide32 false false).status.wvalid = true ∧
      (withWords wide32 false false).model.ref = false ∧ (withWords wide32 false false).wtblLittle = false ∧
      (withWords wide32 false false).model.w = 8 * wordBytes (withWords wide32 false false).wtblW8 :=
  ⟨⟨withWords_inv iso_canonical _ _ (by decide), rfl, rfl, rfl⟩, withWords_inv wide32_canonical _ _ (by decide), rfl,
    rfl, rfl, rfl⟩

theorem witness_WordStepAdvancesOverAWord :
    wide32.Canonical ∧ wide32.w ≤ 64 ∧ wide32.w ≤ 8 * 4 ∧ 0xFFFFFFFF < 2 ^ wide32.w ∧
      ([0x31, 0x32, 0x33, 0x34] : List Byte).length = 4 :=
  ⟨wide32_canonical, by decide, by decide, by decide, rfl⟩

theorem witness_MultModPIsACommutativeProduct : iso.Canonical ∧ iso.w ≤ 64 ∧ 0xFFFFFFFF < 2 ^ iso.w :=
  ⟨iso_canonical, by decide, by decide⟩

theorem witness_PowerWalkComputesPowers :
    (Inv full ∧ full.status.cvalid = true) ∧ (Inv acyclicState ∧ acyclicState.status.cvalid = true) ∧
      2 ^ 64 - 1 < 2 ^ 64 ∧ 7 < 2 ^ full.model.w :=
  ⟨⟨full_inv, rfl⟩, ⟨acyclicState_inv, rfl⟩, by decide, by decide⟩

theorem witness_ZerosPathsAgree :
    let s := fullWith 4 0 0 200 0
    Inv s ∧ s.status.cvalid = true ∧ exec .zeros s = .next (after (exec .zeros s)) ∧ opLen s = 8 * 25 :=
  ⟨fullWith_inv _ _ _ _ _, rfl, rfl, rfl⟩

/-- The CRCs of "12" and "3", CRC-3/GSM. -/
theorem witness_CombineLaw :
    let b₁ : List Byte := [0x31, 0x32]
    let b₂ : List Byte := [0x33]
    let c₁ := crcFrom gsm gsm.init.toNat b₁
    let c₂ := crcFrom gsm gsm.init.toNat b₂
    let s := fullWith (BitVec.ofNat 128 c₁) (BitVec.ofNat 128 c₂) 0 1 0
    Inv s ∧ s.status.cvalid = true ∧ opA s = crcFrom s.model s.model.init.toNat b₁ ∧
      opB s = crcFrom s.model s.model.init.toNat b₂ ∧ opLen s = b₂.length :=
  ⟨fullWith_inv _ _ _ _ _, rfl, by decide +kernel, by decide +kernel, rfl⟩

/-- The second part: CRC_BIT from M_INIT. -/
theorem witness_CombineLaw_crcBit :
    let s := { fullWith 7 0 0x1000 9 0 with mem := checkString 0x1000 }
    bufferChecksPass s (.crcBit false) ∧ (∀ r ∈ readsOf s (.crcBit false), s.answers r) ∧
      s.commandRegs.opa = s.model.init :=
  ⟨⟨rfl, by decide⟩, fun r _ => answers_plain rfl rfl r, rfl⟩

end Sys2Proof.Tests
end

section
/-! # What a command can answer

What `exec` can answer, said once for all commands: an error completion, BUS, a value, or the effect of NOP, CANON
or a build. The frame and safety statements are case analyses of `ExecOutcome`. -/

namespace Sys2Proof.Machine

/-! ## Outcomes of a command -/

/-- The commands that write no value: NOP, CANON and the builds (R33). -/
abbrev controlCommands : List Instr := [.nop, .canon, .buildByte, .buildWord, .buildComb]

/-- table_byte of the held model stands, and BVALID is 1 (R182). -/
def State.holdByteTable (s : State) : State :=
  { s with byteTable := builtByteTable s.model, status := { s.status with bvalid := true } }

/-- table_word stands for the word size and byte order of `r`, and WVALID is 1 (R194). -/
def State.holdWordTable (s : State) (r : HostRegs) : State :=
  { s with
    wordTable := builtWordTable s.model s.byteTable (wordBytes r.w8) r.little s.draws
    wtblLittle := r.little
    wtblW8 := r.w8
    status := { s.status with wvalid := true } }

/-- table_comb and COMB_INFO of the held model stand, and CVALID is 1 (R221). -/
def State.holdCombTable (s : State) : State :=
  { s with
    combTable := builtCombTable (combSequence s.model).1 s.draws
    combCycle := BitVec.ofNat 8 (combSequence s.model).1.length
    combBack := BitVec.ofNat 8 ((combSequence s.model).2.getD 0xFF)
    status := { s.status with cvalid := true } }

/-- The ways in which the command `i`, run at `s`, can complete. -/
inductive ExecOutcome (s : State) : Instr → State → Prop where
  /-- An error other than BUS (R252). -/
  | error {i : Instr} {code : ErrCode} (hok : code ≠ .ok) (hbus : code ≠ .bus) : ExecOutcome s i (s.complete code)
  /-- BUS, of a command that reads memory (R258). -/
  | bus {i : Instr} (hreads : readsOf s i ≠ []) (hval : i ∉ controlCommands) (a : Word) :
    ExecOutcome s i (State.complete { s with errAddr := a } .bus)
  /-- A value in RESULT (R33). -/
  | value {i : Instr} (hval : i ∉ controlCommands) (v : Wide) :
    ExecOutcome s i (State.complete { s with result := v } .ok)
  /-- NOP (R130). -/
  | nop : ExecOutcome s .nop (s.complete .ok)
  /-- CANON of a usable model (R134). -/
  | canon (husable : usableModel s.commandRegs = true) :
    ExecOutcome s .canon ((s.holdModel (canonicalModel s.commandRegs)).complete .ok)
  /-- BUILD_BYTE (R182). -/
  | buildByte (hm : s.status.mvalid = true) (hw : s.model.w ≤ 64) :
    ExecOutcome s .buildByte (s.holdByteTable.complete .ok)
  /-- BUILD_WORD (R194). -/
  | buildWord (hb : s.status.bvalid = true) (hw : s.model.w ≤ 8 * wordBytes s.commandRegs.w8) :
    ExecOutcome s .buildWord ((s.holdWordTable s.commandRegs).complete .ok)
  /-- BUILD_COMB (R221). -/
  | buildComb (hm : s.status.mvalid = true) (hw : s.model.w ≤ 64) :
    ExecOutcome s .buildComb (s.holdCombTable.complete .ok)

/-! ## The checks: each fails with its error, or the command goes on -/

section
variable {s t : State} {i : Instr} {k : StepResult}

theorem needModel_outcome (h : needModel s k = .next t)
    (hk : s.status.mvalid = true → k = .next t → ExecOutcome s i t) : ExecOutcome s i t := by
  rcases needModel_next.1 h with ⟨hm, h⟩ | ⟨-, rfl⟩
  · exact hk hm h
  · exact .error (by decide) (by decide)

theorem needWidth_outcome {limit : Nat} (h : needWidth s limit k = .next t)
    (hk : s.model.w ≤ limit → k = .next t → ExecOutcome s i t) : ExecOutcome s i t := by
  rcases needWidth_next.1 h with ⟨hw, h⟩ | ⟨-, rfl⟩
  · exact hk hw h
  · exact .error (by decide) (by decide)

theorem needTable_outcome {flag : Bool} (h : needTable s flag k = .next t)
    (hk : flag = true → k = .next t → ExecOutcome s i t) : ExecOutcome s i t := by
  rcases needTable_next.1 h with ⟨hf, h⟩ | ⟨-, rfl⟩
  · exact hk hf h
  · exact .error (by decide) (by decide)

theorem needArg_outcome {ok : Bool} (h : needArg s ok k = .next t)
    (hk : k = .next t → ExecOutcome s i t) : ExecOutcome s i t := by
  rcases needArg_next.1 h with ⟨-, h⟩ | ⟨-, rfl⟩
  · exact hk h
  · exact .error (by decide) (by decide)

theorem needBuffer_outcome (h : needBuffer s k = .next t)
    (hk : k = .next t → ExecOutcome s i t) : ExecOutcome s i t := by
  rcases needBuffer_next.1 h with ⟨-, h⟩ | ⟨-, rfl⟩
  · exact hk h
  · exact .error (by decide) (by decide)

/-! ## The ends of a value command -/

theorem finishValue_outcome {v : Nat} (hval : i ∉ controlCommands) (h : finishValue s v = .next t) :
    ExecOutcome s i t := by
  rw [finishValue_next.1 h]
  exact .value hval _

theorem finishWalk_outcome {o : Option Nat} (hval : i ∉ controlCommands) (h : finishWalk s o = .next t) :
    ExecOutcome s i t := by
  rcases finishWalk_next.1 h with ⟨v, -, h⟩ | ⟨-, rfl⟩
  · exact finishValue_outcome hval h
  · exact .error (by decide) (by decide)

theorem finishRun_outcome {r : Run Nat} (hval : i ∉ controlCommands)
    (hreads : ∀ a, r = .busError a → readsOf s i ≠ []) (h : finishRun s r = .next t) : ExecOutcome s i t := by
  rcases finishRun_next.1 h with ⟨v, -, h⟩ | ⟨a, hr, h⟩
  · exact finishValue_outcome hval h
  · rw [raiseBus_next.1 h]
    exact .bus (hreads a hr) hval _

end

/-! ## A command over an empty buffer makes no read -/

theorem feedBuffer_zero (s : State) (upd : Nat → Nat → Nat) (a q : Nat) : feedBuffer s upd 0 a q = .value q := rfl

theorem wordBytes_pos (w8 : Bool) : 0 < wordBytes w8 := by cases w8 <;> decide

theorem byteReads_eq_nil {a n : Nat} : byteReads a n = [] ↔ n = 0 := by simp [byteReads]

theorem wordReads_eq_nil {b a n : Nat} (h : wordReads b a n = []) : n = 0 := by
  simp only [wordReads, List.append_eq_nil_iff, byteReads_eq_nil, List.map_eq_nil_iff, List.range_eq_nil] at h
  obtain ⟨⟨hp, hd⟩, hm⟩ := h
  rw [hp, Nat.sub_zero] at hd hm
  rw [← Nat.div_add_mod n b, hd, hm, Nat.mul_zero]

theorem bitCrc_of_empty {s : State} (h : opLen s = 0) (a : Nat) : bitCrc s ≠ .busError a := by
  simp [bitCrc, h, feedBuffer_zero]

theorem byteCrc_of_empty {s : State} (h : opLen s = 0) (a : Nat) : byteCrc s ≠ .busError a := by
  simp [byteCrc, h, feedBuffer_zero]

theorem wordCrc_of_empty {s : State} (h : opLen s = 0) (a : Nat) : wordCrc s ≠ .busError a := by
  simp [wordCrc, h, prologue, bulkPart, feedBuffer_zero, Nat.ne_of_gt (wordBytes_pos s.wtblW8)]

/-! ## The commands -/

theorem execCanon_outcome {s t : State} (h : execCanon s = .next t) : ExecOutcome s .canon t := by
  unfold execCanon at h
  split at h
  · next husable => rw [finish_next.1 h]; exact .canon husable
  · rw [raiseError_next.1 h]; exact .error (by decide) (by decide)

theorem execBuildByte_outcome {s t : State} (h : execBuildByte s = .next t) : ExecOutcome s .buildByte t :=
  needModel_outcome h fun hm h => needWidth_outcome h fun hw h => by
    rw [finish_next.1 h]; exact .buildByte hm hw

theorem execBuildWord_outcome {s t : State} (h : execBuildWord s = .next t) : ExecOutcome s .buildWord t :=
  needModel_outcome h fun _ h => needWidth_outcome h fun hw h => needTable_outcome h fun hb h => by
    rw [finish_next.1 h]; exact .buildWord hb (hw.trans (Nat.min_le_right _ _))

theorem execBuildComb_outcome {s t : State} (h : execBuildComb s = .next t) : ExecOutcome s .buildComb t :=
  needModel_outcome h fun hm h => needWidth_outcome h fun hw h => by
    rw [finish_next.1 h]; exact .buildComb hm hw

theorem execCrcBit_outcome {s t : State} {e : Bool} (h : execCrcBit e s = .next t) : ExecOutcome s (.crcBit e) t :=
  needModel_outcome h fun _ h => by
    cases e with
    | true => exact finishValue_outcome (by decide) h
    | false =>
      exact needBuffer_outcome h fun h => finishRun_outcome (by decide)
        (fun a hr hn => bitCrc_of_empty (byteReads_eq_nil.1 hn) a hr) h

theorem execCrcByte_outcome {s t : State} {e : Bool} (h : execCrcByte e s = .next t) : ExecOutcome s (.crcByte e) t :=
  needModel_outcome h fun _ h => needWidth_outcome h fun _ h => needTable_outcome h fun _ h => by
    cases e with
    | true => exact finishValue_outcome (by decide) h
    | false =>
      exact needBuffer_outcome h fun h => finishRun_outcome (by decide)
        (fun a hr hn => byteCrc_of_empty (byteReads_eq_nil.1 hn) a hr) h

theorem execCrcWord_outcome {s t : State} {e : Bool} (h : execCrcWord e s = .next t) : ExecOutcome s (.crcWord e) t :=
  needModel_outcome h fun _ h => needWidth_outcome h fun _ h => needTable_outcome h fun _ h => by
    cases e with
    | true => exact finishValue_outcome (by decide) h
    | false =>
      exact needBuffer_outcome h fun h => finishRun_outcome (by decide)
        (fun a hr hn => wordCrc_of_empty (wordReads_eq_nil hn) a hr) h

theorem readTable_outcome {s t : State} {sel n k : Nat} (h : readTable s sel n k = .next t) :
    ExecOutcome s .tblrd t := by
  unfold readTable at h
  split at h
  · exact needTable_outcome h fun _ h => finishValue_outcome (by decide) h
  · exact needTable_outcome h fun _ h => needArg_outcome h fun h => finishValue_outcome (by decide) h
  · exact needTable_outcome h fun _ h => needArg_outcome h fun h => finishValue_outcome (by decide) h

/-- Everything a command can answer. -/
theorem exec_outcome {i : Instr} {s t : State} (h : exec i s = .next t) : ExecOutcome s i t := by
  cases i with
  | nop => rw [finish_next.1 h]; exact .nop
  | canon => exact execCanon_outcome h
  | buildByte => exact execBuildByte_outcome h
  | buildWord => exact execBuildWord_outcome h
  | buildComb => exact execBuildComb_outcome h
  | crcBit e => exact execCrcBit_outcome h
  | crcByte e => exact execCrcByte_outcome h
  | crcWord e => exact execCrcWord_outcome h
  | crcRem =>
    exact needModel_outcome h fun _ h => needArg_outcome h fun h => finishValue_outcome (by decide) h
  | reverse => exact needArg_outcome h fun h => finishValue_outcome (by decide) h
  | mulmod =>
    exact needModel_outcome h fun _ h => needWidth_outcome h fun _ h => finishValue_outcome (by decide) h
  | x8n =>
    exact needModel_outcome h fun _ h => needWidth_outcome h fun _ h => needTable_outcome h fun _ h =>
      finishWalk_outcome (by decide) h
  | zeros => exact needModel_outcome h fun _ h => finishWalk_outcome (by decide) h
  | combine =>
    exact needModel_outcome h fun _ h => needWidth_outcome h fun _ h => needTable_outcome h fun _ h =>
      finishWalk_outcome (by decide) h
  | tblrd => exact needModel_outcome h fun _ h => needArg_outcome h fun h => readTable_outcome h

end Sys2Proof.Machine
end

section
/-! # The model's arithmetic stays inside the width

The registers of a canonical model, and the entries of its combine table, stay below 2^w, and the table inside its
131 entries (R36, R211, R212, R220). -/

namespace Sys2Proof.Machine

/-! ## Bit reversal -/

theorem bitReverse_lt (x n : Nat) : bitReverse x n < 2 ^ n := by
  induction n with
  | zero => simp [bitReverse]
  | succ n ih =>
    have hb : (bit x n).toNat ≤ 1 := Bool.toNat_le _
    rw [bitReverse, Nat.pow_succ]
    omega

/-- Bit i of the reversal is bit n − 1 − i (R150). -/
theorem testBit_bitReverse (x n i : Nat) (hi : i < n) : (bitReverse x n).testBit i = x.testBit (n - 1 - i) := by
  induction n generalizing i with
  | zero => omega
  | succ n ih =>
    have hb : (bit x n).toNat ≤ 1 := Bool.toNat_le _
    cases i with
    | zero => cases h : bit x n <;> simp_all [bitReverse, bit]
    | succ i =>
      have hhalf : (2 * bitReverse x n + (bit x n).toNat) / 2 = bitReverse x n := by omega
      rw [bitReverse, Nat.testBit_succ, hhalf, ih i (by omega)]
      congr 1; omega

theorem reverseIf_lt {flag : Bool} {x w : Nat} (hx : x < 2 ^ w) : reverseIf flag x w < 2 ^ w := by
  cases flag
  · exact hx
  · exact bitReverse_lt x w

/-! ## Registers -/

theorem and_ones_lt (x w : Nat) : x &&& ones w < 2 ^ w := by
  rw [ones, Nat.and_two_pow_sub_one_eq_mod]
  exact Nat.mod_lt _ (Nat.two_pow_pos w)

theorem stepRef_lt {m : Model} (hm : m.Canonical) {r : Nat} (hr : r < 2 ^ m.w) (d : Bool) :
    stepRef m r d < 2 ^ m.w := by
  have hs : r >>> 1 < 2 ^ m.w := (Nat.shiftRight_le r 1).trans_lt hr
  unfold stepRef
  split
  · exact Nat.xor_lt_two_pow hs hm.polyFits
  · exact hs

theorem stepNorm_lt {m : Model} (hm : m.Canonical) (r : Nat) (d : Bool) : stepNorm m r d < 2 ^ m.w := by
  unfold stepNorm
  split
  · exact Nat.xor_lt_two_pow (and_ones_lt _ _) hm.polyFits
  · exact and_ones_lt _ _

/-- One step keeps the register inside the width (R160, R161). -/
theorem stepBit_lt {m : Model} (hm : m.Canonical) {r : Nat} (hr : r < 2 ^ m.w) (d : Bool) :
    stepBit m r d < 2 ^ m.w := by
  unfold stepBit
  split
  · exact stepRef_lt hm hr d
  · exact stepNorm_lt hm r d

theorem mulX_lt {m : Model} (hm : m.Canonical) {b : Nat} (hb : b < 2 ^ m.w) : mulX m b < 2 ^ m.w :=
  stepBit_lt hm hb false

theorem polyOne_lt {m : Model} (hm : m.Canonical) : polyOne m < 2 ^ m.w := by
  have hw := hm.widthPos
  unfold polyOne
  split
  · rw [Nat.one_shiftLeft]
    exact Nat.pow_lt_pow_right (by decide) (by omega)
  · exact Nat.one_lt_two_pow (by omega)

theorem mulRounds_lt {m : Model} (hm : m.Canonical) (a : Nat) {b : Nat} (hb : b < 2 ^ m.w) (n : Nat) :
    (mulRounds m a b n).1 < 2 ^ m.w ∧ (mulRounds m a b n).2 < 2 ^ m.w := by
  induction n with
  | zero => exact ⟨Nat.two_pow_pos _, hb⟩
  | succ n ih =>
    obtain ⟨hprod, hbx⟩ := ih
    refine ⟨?_, mulX_lt hm hbx⟩
    simp only [mulRounds]
    split
    · exact Nat.xor_lt_two_pow hprod hbx
    · exact hprod

/-- A product is inside the width, whatever the factors (R212). -/
theorem multModP_lt {m : Model} (hm : m.Canonical) (a b : Nat) : multModP m a b < 2 ^ m.w :=
  (mulRounds_lt hm _ (and_ones_lt b m.w) m.w).1

/-! ## The combine table -/

theorem indexOf_lt_length {v i : Nat} {es : List Nat} (h : indexOf v es = some i) : i < es.length := by
  induction es generalizing i with
  | nil => simp [indexOf] at h
  | cons e es ih =>
    rw [indexOf] at h
    split at h
    · cases h; simp
    · obtain ⟨j, hj, rfl⟩ := Option.map_eq_some_iff.1 h
      have := ih hj
      simp only [List.length_cons]; omega

/-- The combine table has at most `n` entries more than it started from, a repeat equals one of them, and each is inside
the width (R220). -/
theorem combFrom_bounds {m : Model} (hm : m.Canonical) (n : Nat) (es : List Nat) (last : Nat)
    (hes : ∀ e ∈ es, e < 2 ^ m.w) :
    (combFrom m n es last).1.length ≤ es.length + n ∧
      (∀ i, (combFrom m n es last).2 = some i → i < (combFrom m n es last).1.length) ∧
      ∀ e ∈ (combFrom m n es last).1, e < 2 ^ m.w := by
  induction n generalizing es last with
  | zero => exact ⟨le_rfl, fun i h => by simp [combFrom] at h, hes⟩
  | succ n ih =>
    rw [combFrom]
    split
    · next j hj =>
      refine ⟨Nat.le_add_right _ _, fun i h => ?_, hes⟩
      cases h
      exact indexOf_lt_length hj
    · have hes' : ∀ e ∈ es ++ [multModP m last last], e < 2 ^ m.w := by
        intro e he
        rcases List.mem_append.1 he with he | he
        · exact hes e he
        · rw [List.mem_singleton.1 he]; exact multModP_lt hm last last
      obtain ⟨hlen, hback, hlt⟩ := ih _ (multModP m last last) hes'
      refine ⟨hlen.trans ?_, hback, hlt⟩
      simp only [List.length_append, List.length_singleton]; omega

theorem combSequence_bounds {m : Model} (hm : m.Canonical) :
    (combSequence m).1.length ≤ 131 ∧ (∀ i, (combSequence m).2 = some i → i < (combSequence m).1.length) ∧
      ∀ e ∈ (combSequence m).1, e < 2 ^ m.w := by
  have h := combFrom_bounds hm 130 [mulX m (polyOne m)] (mulX m (polyOne m))
    fun e he => List.mem_singleton.1 he ▸ mulX_lt hm (polyOne_lt hm)
  rwa [List.length_singleton] at h

theorem combBack_lt {m : Model} (hm : m.Canonical) : (combSequence m).2.getD 0xFF < 256 := by
  obtain ⟨hlen, hback, -⟩ := combSequence_bounds hm
  cases h : (combSequence m).2 with
  | none => decide
  | some i => exact (hback i h).trans_le (hlen.trans (by decide))

end Sys2Proof.Machine
end

section
/-! # The table memories

The sizes of the tables, free or built, and what stands in a built one (R40 to R42, R181, R193, R220). -/

namespace Sys2Proof.Machine

@[simp] theorem freeByteTable_length (d : Nat) : (freeByteTable d).length = 256 := by simp [freeByteTable]

@[simp] theorem freeWordRow_length (d n : Nat) : (freeWordRow d n).length = 256 := by simp [freeWordRow]

@[simp] theorem freeWordTable_length (d : Nat) : (freeWordTable d).length = 8 := by simp [freeWordTable]

@[simp] theorem freeCombTable_length (d : Nat) : (freeCombTable d).length = 131 := by
  simp [freeCombTable, Config.combEntries]

@[simp] theorem builtByteTable_length (m : Model) : (builtByteTable m).length = 256 := by simp [builtByteTable]

@[simp] theorem builtWordRow_length (m : Model) (t : List Word) (b : Nat) (l : Bool) (n : Nat) :
    (builtWordRow m t b l n).length = 256 := by simp [builtWordRow]

@[simp] theorem builtWordTable_length (m : Model) (t : List Word) (b : Nat) (l : Bool) (d : Nat) :
    (builtWordTable m t b l d).length = 8 := by simp [builtWordTable]

@[simp] theorem builtCombTable_length (es : List Nat) (d : Nat) : (builtCombTable es d).length = 131 := by
  simp [builtCombTable, Config.combEntries]

theorem freeWordTable_rows {d : Nat} {row : List Word} (h : row ∈ freeWordTable d) : row.length = 256 := by
  obtain ⟨n, -, rfl⟩ := List.mem_map.1 h
  exact freeWordRow_length d n

theorem builtWordTable_rows {m : Model} {t : List Word} {b d : Nat} {l : Bool} {row : List Word}
    (h : row ∈ builtWordTable m t b l d) : row.length = 256 := by
  obtain ⟨n, -, rfl⟩ := List.mem_map.1 h
  split
  · exact builtWordRow_length m t b l n
  · exact freeWordRow_length d n

/-- Rows below B of a built table_word are built (R193). -/
theorem builtWordTable_getD (m : Model) (t : List Word) {b : Nat} (l : Bool) (d : Nat) {n : Nat} (hn : n < b)
    (hb : b ≤ 8) : (builtWordTable m t b l d).getD n [] = builtWordRow m t b l n := by
  have h8 : n < 8 := hn.trans_le hb
  simp [builtWordTable, List.getD_eq_getElem?_getD, h8, hn]

/-- The entries of a built table_comb are those of the sequence (R220). -/
theorem entry_builtCombTable {es : List Nat} {d k : Nat} (hk : k < es.length) (hlen : es.length ≤ 131)
    (hlt : ∀ e ∈ es, e < 2 ^ 64) : entry (builtCombTable es d) k = es.getD k 0 := by
  have hk131 : k < 131 := hk.trans_le hlen
  have he : es[k] < 2 ^ 64 := hlt _ (List.getElem_mem hk)
  simpa [entry, builtCombTable, Config.combEntries, List.getD_eq_getElem?_getD, hk131, hk] using he

theorem wordBytes_le (w8 : Bool) : wordBytes w8 ≤ 8 := by cases w8 <;> decide

/-- Tables with unspecified contents have their sizes (U1, U2). -/
theorem freeTables_sizes {s : State} {d : Nat} (hb : s.byteTable = freeByteTable d) (hw : s.wordTable = freeWordTable d)
    (hc : s.combTable = freeCombTable d) : s.TableSizes where
  byte := by simp [hb]
  word := by simp [hw]
  rows row h := freeWordTable_rows (hw ▸ h)
  comb := by simp [hc]

end Sys2Proof.Machine
end

section
/-! # CANON's model is canonical

What CANON checks is what a canonical model needs (R132, R133, R36). -/

namespace Sys2Proof.Machine

theorem shiftRight_eq_zero_iff {x w : Nat} : x >>> w = 0 ↔ x < 2 ^ w := by
  rw [Nat.shiftRight_eq_div_pow, Nat.div_eq_zero_iff_lt (Nat.two_pow_pos w)]

/-- What CANON checks (R132). -/
theorem usableModel_iff {r : HostRegs} :
    usableModel r = true ↔
      1 ≤ r.cfgWidth.toNat ∧ r.cfgWidth.toNat ≤ 128 ∧ r.cfgPoly.toNat.testBit 0 = true ∧
        r.cfgPoly.toNat < 2 ^ r.cfgWidth.toNat ∧ r.cfgInit.toNat < 2 ^ r.cfgWidth.toNat ∧
        r.cfgXorout.toNat < 2 ^ r.cfgWidth.toNat := by
  simp only [usableModel, bit, Bool.and_eq_true, decide_eq_true_eq, beq_iff_eq, shiftRight_eq_zero_iff, and_assoc]
  rfl

/-- A quantity below 2^w fits its 128-bit register. -/
theorem toNat_ofNat_wide {x w : Nat} (hw : w ≤ 128) (hx : x < 2 ^ w) : (BitVec.ofNat 128 x).toNat = x := by
  rw [BitVec.toNat_ofNat, Nat.mod_eq_of_lt (hx.trans_le (Nat.pow_le_pow_right (by decide) hw))]

/-- A usable configuration gives a canonical model (R132, R133, R36). -/
theorem canonicalModel_canonical {r : HostRegs} (h : usableModel r = true) : (canonicalModel r).Canonical := by
  obtain ⟨hpos, hmax, hodd, hpoly, hinit, hxor⟩ := usableModel_iff.1 h
  have hp := toNat_ofNat_wide hmax (reverseIf_lt (flag := r.refin) hpoly)
  have hi : reverseIf r.refout r.cfgInit.toNat r.cfgWidth.toNat ^^^ r.cfgXorout.toNat < 2 ^ r.cfgWidth.toNat :=
    Nat.xor_lt_two_pow (reverseIf_lt hinit) hxor
  refine ⟨hpos, hmax, ?_, ?_, hxor, ?_⟩
  · exact hp.trans_lt (reverseIf_lt hpoly)
  · exact (toNat_ofNat_wide hmax hi).trans_lt hi
  · show (BitVec.ofNat 128 _).toNat.testBit (if r.refin then r.cfgWidth.toNat - 1 else 0) = true
    rw [hp]
    cases r.refin with
    | false => exact hodd
    | true =>
      show (bitReverse _ _).testBit (r.cfgWidth.toNat - 1) = true
      rw [testBit_bitReverse _ _ _ (by omega), Nat.sub_self]
      exact hodd

end Sys2Proof.Machine
end

section
/-! # Every step keeps the invariant (O8)

The clauses of `Inv` about the model and the tables follow `SameTables`; a command changes them only by holding
a new model or a built table, and every event keeps the clauses about memory and the command in flight (R36 to R43,
R290). -/

namespace Sys2Proof.Machine

/-! ## States with the same model and tables -/

/-- The two states hold the same model and the same tables, with the same flags. -/
structure SameTables (s t : State) : Prop where
  model : t.model = s.model
  mvalid : t.status.mvalid = s.status.mvalid
  bvalid : t.status.bvalid = s.status.bvalid
  wvalid : t.status.wvalid = s.status.wvalid
  cvalid : t.status.cvalid = s.status.cvalid
  byteTable : t.byteTable = s.byteTable
  wordTable : t.wordTable = s.wordTable
  combTable : t.combTable = s.combTable
  combCycle : t.combCycle = s.combCycle
  combBack : t.combBack = s.combBack
  wtblLittle : t.wtblLittle = s.wtblLittle
  wtblW8 : t.wtblW8 = s.wtblW8

theorem SameTables.byteTableBuilt {s t : State} (h : SameTables s t) (hs : s.ByteTableBuilt) : t.ByteTableBuilt where
  model := h.mvalid.trans hs.model
  fits := h.model ▸ hs.fits
  content := by rw [h.byteTable, h.model]; exact hs.content

theorem SameTables.wordTableBuilt {s t : State} (h : SameTables s t) (hs : s.WordTableBuilt) : t.WordTableBuilt where
  byte := h.bvalid.trans hs.byte
  fits := by rw [h.model, h.wtblW8]; exact hs.fits
  content := by rw [h.wordTable, h.model, h.byteTable, h.wtblW8, h.wtblLittle]; exact hs.content

theorem SameTables.combTableBuilt {s t : State} (h : SameTables s t) (hs : s.CombTableBuilt) : t.CombTableBuilt where
  model := h.mvalid.trans hs.model
  fits := h.model ▸ hs.fits
  cycle := by rw [h.combCycle, h.model]; exact hs.cycle
  back := by rw [h.combBack, h.model]; exact hs.back
  content := by rw [h.combTable, h.model]; exact hs.content

theorem SameTables.sizes {s t : State} (h : SameTables s t) (hs : s.TableSizes) : t.TableSizes where
  byte := h.byteTable ▸ hs.byte
  word := h.wordTable ▸ hs.word
  rows := h.wordTable ▸ hs.rows
  comb := h.combTable ▸ hs.comb

/-- The invariant follows the model and the tables; memory and the command in flight are left to show. -/
theorem SameTables.inv {s t : State} (h : SameTables s t) (hs : Inv s) (memory : Memory.wf t.mem)
    (idle : t.inflight = none → t.held = []) (busy : t.busy = true → t.status.done = false)
    (command : ∀ c, t.inflight = some c → t.cmd = c.word) : Inv t where
  memory := memory
  idle := idle
  busy := busy
  command := command
  model hm := h.model ▸ hs.model (h.mvalid ▸ hm)
  byteTable hb := h.byteTableBuilt (hs.byteTable (h.bvalid ▸ hb))
  wordTable hw := h.wordTableBuilt (hs.wordTable (h.wvalid ▸ hw))
  combTable hc := h.combTableBuilt (hs.combTable (h.cvalid ▸ hc))
  sizes := h.sizes hs.sizes

/-! ## What a host access may change -/

/-- A write of any register but STATUS and CMD sets host registers and IE only. -/
theorem writeReg_hostRegs {s : State} {r : Reg} {v : Word} (hs : r ≠ .status) (hc : r ≠ .cmd) :
    writeReg s r v = { s with regs := (writeReg s r v).regs, ie := (writeReg s r v).ie } := by
  cases r
  case status => exact absurd rfl hs
  case cmd => exact absurd rfl hc
  all_goals rfl

/-- A host read records its answer and changes nothing else (R71). -/
theorem hostRead_response (s : State) (a n : Nat) : ∃ r, hostRead s a n = { s with response := r } := by
  unfold hostRead
  split
  · split <;> exact ⟨_, rfl⟩
  · exact ⟨_, rfl⟩

/-! ## Completions keep the invariant -/

theorem Inv.complete {s : State} (h : Inv s) (c : ErrCode) : Inv (s.complete c) :=
  SameTables.inv (by constructor <;> rfl) h h.memory (fun _ => rfl) (fun hb => by simp at hb)
    fun _ hc => by simp at hc

theorem Inv.result {s : State} (h : Inv s) (v : Wide) : Inv { s with result := v } :=
  SameTables.inv (by constructor <;> rfl) h h.memory h.idle h.busy h.command

theorem Inv.errAddr {s : State} (h : Inv s) (a : Word) : Inv { s with errAddr := a } :=
  SameTables.inv (by constructor <;> rfl) h h.memory h.idle h.busy h.command

/-- A new canonical model is held with every table flag 0 (R134). -/
theorem Inv.holdModel {s : State} (h : Inv s) {m : Model} (hm : m.Canonical) : Inv (s.holdModel m) where
  memory := h.memory
  idle := h.idle
  busy := h.busy
  command := h.command
  model _ := hm
  byteTable hb := by simp at hb
  wordTable hw := by simp at hw
  combTable hc := by simp at hc
  sizes := freeTables_sizes rfl rfl rfl

/-- A new table_byte is the old one where table_word needs one: both are the held model's. -/
theorem Inv.holdByteTable {s : State} (h : Inv s) (hm : s.status.mvalid = true) (hw : s.model.w ≤ 64) :
    Inv s.holdByteTable where
  memory := h.memory
  idle := h.idle
  busy := h.busy
  command := h.command
  model := h.model
  byteTable _ := ⟨hm, hw, rfl⟩
  wordTable hwv := by
    have hword := h.wordTable hwv
    have hsame : s.byteTable = builtByteTable s.model := (h.byteTable hword.byte).content
    exact ⟨rfl, hword.fits, fun n hn => (hword.content n hn).trans (by rw [hsame]; rfl)⟩
  combTable hc :=
    have hcomb := h.combTable hc
    ⟨hcomb.model, hcomb.fits, hcomb.cycle, hcomb.back, hcomb.content⟩
  sizes := ⟨builtByteTable_length s.model, h.sizes.word, h.sizes.rows, h.sizes.comb⟩

theorem Inv.holdWordTable {s : State} (h : Inv s) {r : HostRegs} (hb : s.status.bvalid = true)
    (hw : s.model.w ≤ 8 * wordBytes r.w8) : Inv (s.holdWordTable r) where
  memory := h.memory
  idle := h.idle
  busy := h.busy
  command := h.command
  model := h.model
  byteTable hb :=
    have hbyte := h.byteTable hb
    ⟨hbyte.model, hbyte.fits, hbyte.content⟩
  wordTable _ := ⟨hb, hw, fun _ hn => builtWordTable_getD _ _ _ _ hn (wordBytes_le _)⟩
  combTable hc :=
    have hcomb := h.combTable hc
    ⟨hcomb.model, hcomb.fits, hcomb.cycle, hcomb.back, hcomb.content⟩
  sizes := ⟨h.sizes.byte, builtWordTable_length _ _ _ _ _, fun _ => builtWordTable_rows, h.sizes.comb⟩

/-- CYCLE and BACK fit their eight bits, and the entries theirs of 64 (R37, R42). -/
theorem Inv.holdCombTable {s : State} (h : Inv s) (hm : s.status.mvalid = true) (hw : s.model.w ≤ 64) :
    Inv s.holdCombTable := by
  have hcanon := h.model hm
  obtain ⟨hlen, -, hlt⟩ := combSequence_bounds hcanon
  have hentries : ∀ e ∈ (combSequence s.model).1, e < 2 ^ 64 := fun e he =>
    (hlt e he).trans_le (Nat.pow_le_pow_right (by decide) hw)
  exact
    { memory := h.memory
      idle := h.idle
      busy := h.busy
      command := h.command
      model := h.model
      byteTable := fun hb =>
        have hbyte := h.byteTable hb
        ⟨hbyte.model, hbyte.fits, hbyte.content⟩
      wordTable := fun hwv =>
        have hword := h.wordTable hwv
        ⟨hword.byte, hword.fits, hword.content⟩
      combTable := fun _ =>
        { model := hm
          fits := hw
          cycle := (BitVec.toNat_ofNat _ _).trans (Nat.mod_eq_of_lt (hlen.trans_lt (by decide)))
          back := (BitVec.toNat_ofNat _ _).trans (Nat.mod_eq_of_lt (combBack_lt hcanon))
          content := fun _ hk => entry_builtCombTable hk hlen hentries }
      sizes := ⟨h.sizes.byte, h.sizes.word, h.sizes.rows, builtCombTable_length _ _⟩ }

theorem ExecOutcome.inv {s t : State} {i : Instr} (ho : ExecOutcome s i t) (h : Inv s) : Inv t := by
  cases ho with
  | error => exact h.complete _
  | bus _ _ a => exact (h.errAddr a).complete _
  | value _ v => exact (h.result v).complete _
  | nop => exact h.complete _
  | canon husable => exact (h.holdModel (canonicalModel_canonical husable)).complete _
  | buildByte hm hw => exact (h.holdByteTable hm hw).complete _
  | buildWord hb hw => exact (h.holdWordTable hb hw).complete _
  | buildComb hm hw => exact (h.holdCombTable hm hw).complete _

theorem engineTurn_inv {s t : State} (h : Inv s) (ht : engineTurn s = .next t) : Inv t := by
  rcases engineTurn_next ht with ⟨c, i, -, -, hexec⟩ | ⟨c, e, -, -, rfl⟩ | ⟨-, rfl⟩
  · exact (exec_outcome hexec).inv h
  · exact h.complete _
  · exact h

/-! ## Other agents' events keep the invariant -/

theorem Inv.schedule {s : State} (h : Inv s) (es : List Event) : Inv { s with schedule := es } :=
  SameTables.inv (by constructor <;> rfl) h h.memory h.idle h.busy h.command

theorem Inv.response {s : State} (h : Inv s) (r : BusResponse) : Inv { s with response := r } :=
  SameTables.inv (by constructor <;> rfl) h h.memory h.idle h.busy h.command

theorem Inv.memoryWrite {s : State} (h : Inv s) (a : Word) (b : Byte) : Inv (memoryWrite s a b) := by
  refine SameTables.inv (by constructor <;> rfl) h (memSet_wf b h.memory a.isLt) (fun hi => ?_) h.busy h.command
  have hi : s.inflight = none := hi
  simp [State.busy, hi, h.idle hi]

/-- A block reset over a canonical memory holds no model and no table (R280). -/
theorem resetBlock_inv {s : State} (h : Memory.wf s.mem) : Inv (resetBlock s) where
  memory := h
  idle _ := rfl
  busy _ := rfl
  command c hc := by simp [State.reset] at hc
  model hm := by simp [State.reset] at hm
  byteTable hb := by simp [State.reset] at hb
  wordTable hw := by simp [State.reset] at hw
  combTable hc := by simp [State.reset] at hc
  sizes := freeTables_sizes rfl rfl rfl

/-- An accepted command starts with DONE = 0, its word in CMD and no races (R80). -/
theorem Inv.accept {s : State} (h : Inv s) (w : Word) : Inv (s.accept w) :=
  SameTables.inv (by constructor <;> rfl) h h.memory (fun _ => rfl) (fun _ => rfl) (fun c hc => by cases hc; rfl)

theorem Inv.hostRegs {s : State} (h : Inv s) (r : HostRegs) (ie : Bool) : Inv { s with regs := r, ie := ie } :=
  SameTables.inv (by constructor <;> rfl) h h.memory h.idle h.busy h.command

theorem Inv.doneOvr {s : State} (h : Inv s) (ovr : Bool) {done : Bool} (hd : s.busy = true → done = false) :
    Inv { s with status := { s.status with done := done, ovr := ovr } } :=
  SameTables.inv (by constructor <;> rfl) h h.memory h.idle hd h.command

theorem Inv.writeCommand {s : State} (h : Inv s) (v : Word) : Inv (writeCommand s v) := by
  unfold Machine.writeCommand
  split
  · exact h.doneOvr true h.busy
  · exact h.accept v

theorem Inv.writeReg {s : State} (h : Inv s) (r : Reg) (v : Word) : Inv (writeReg s r v) := by
  by_cases hc : r = .cmd
  · subst hc; exact h.writeCommand v
  by_cases hs : r = .status
  · subst hs; exact h.doneOvr _ fun hb => by rw [h.busy hb, Bool.false_and]
  · rw [writeReg_hostRegs hs hc]; exact h.hostRegs _ _

theorem Inv.hostWrite {s : State} (h : Inv s) (a n : Nat) (v : Word) : Inv (hostWrite s a n v) := by
  unfold Machine.hostWrite
  split
  · split
    · next r _ => exact (h.writeReg r v).response _
    · exact h.response _
  · exact h.response _

theorem Inv.hostRead {s : State} (h : Inv s) (a n : Nat) : Inv (hostRead s a n) := by
  obtain ⟨r, hr⟩ := hostRead_response s a n
  rw [hr]; exact h.response r

/-- Every step keeps the invariant: the schedule is no part of it, and each event keeps it. -/
theorem Inv.step {s t : State} (h : Inv s) (ht : step s = .next t) : Inv t := by
  have h := h.schedule s.schedule.tail
  rcases step_next ht with ⟨a, n, v, -, rfl⟩ | ⟨a, n, -, rfl⟩ | ⟨-, hturn⟩ | ⟨a, b, -, rfl⟩ | ⟨-, rfl⟩
  · exact h.hostWrite a n v
  · exact h.hostRead a n
  · exact engineTurn_inv h hturn
  · exact h.memoryWrite a b
  · exact resetBlock_inv h.memory

/-- Settles O8: one lemma per event of the step, the engine's turn by the outcomes of a command. -/
theorem stepKeepsInvariant : Obligations.StepKeepsInvariant := fun _ _ h ht => h.step ht

end Sys2Proof.Machine
end

section
/-! # Who writes the model, the flags, RESULT and ERRADDR (O19, O20, O21, O23)

Each fact is read off `ExecOutcome` for a command, then carried to the step, where only reset and the completion of
a command can touch the state in question. -/

namespace Sys2Proof.Machine

/-! ## What a command may change -/

section
variable {s t : State} {i : Instr}

/-- A command other than a successful CANON keeps the model and MVALID (R36). -/
theorem ExecOutcome.model_or_canon (h : ExecOutcome s i t) :
    (t.model = s.model ∧ t.status.mvalid = s.status.mvalid) ∨ (i = .canon ∧ t.status.err = .ok) := by
  cases h with
  | canon => exact .inr ⟨rfl, rfl⟩
  | _ => exact .inl ⟨rfl, rfl⟩

/-- A command other than a successful value command keeps RESULT (R33). -/
theorem ExecOutcome.result_or_value (h : ExecOutcome s i t) :
    t.result = s.result ∨ (i ∉ controlCommands ∧ t.status.err = .ok) := by
  cases h with
  | value hval => exact .inr ⟨hval, rfl⟩
  | _ => exact .inl rfl

/-- A command keeps ERRADDR unless it reads memory and ends with BUS (R34). -/
theorem ExecOutcome.errAddr_or_bus (h : ExecOutcome s i t) :
    t.errAddr = s.errAddr ∨ (readsOf s i ≠ [] ∧ t.status.err = .bus) := by
  cases h with
  | bus hreads => exact .inr ⟨hreads, rfl⟩
  | _ => exact .inl rfl

/-- A command keeps the table flags unless it is a successful CANON or build (R43). -/
theorem ExecOutcome.flags_or_builds (h : ExecOutcome s i t) :
    (t.status.bvalid = s.status.bvalid ∧ t.status.wvalid = s.status.wvalid ∧ t.status.cvalid = s.status.cvalid) ∨
      (i ∈ [.canon, .buildByte, .buildWord, .buildComb] ∧ t.status.err = .ok) := by
  cases h with
  | canon | buildByte | buildWord | buildComb => exact .inr ⟨by decide, rfl⟩
  | _ => exact .inl ⟨rfl, rfl, rfl⟩

/-- The table flags after a command (R43). -/
theorem ExecOutcome.flags (h : ExecOutcome s i t) :
    t.status.bvalid =
      (if t.status.err = .ok ∧ i = .canon then false
       else if t.status.err = .ok ∧ i = .buildByte then true else s.status.bvalid) ∧
    t.status.wvalid =
      (if t.status.err = .ok ∧ i = .canon then false
       else if t.status.err = .ok ∧ i = .buildWord then true else s.status.wvalid) ∧
    t.status.cvalid =
      (if t.status.err = .ok ∧ i = .canon then false
       else if t.status.err = .ok ∧ i = .buildComb then true else s.status.cvalid) := by
  cases h with
  | error hok => simp [hok]
  | bus => simp
  | value hval => simp only [List.mem_cons, not_or] at hval; simp [hval]
  | nop => simp
  | canon => simp
  | buildByte => simp [State.holdByteTable]
  | buildWord => simp [State.holdWordTable]
  | buildComb => simp [State.holdCombTable]

/-- A value command changes RESULT, ERRADDR and the completion's fields, and nothing else (R104, R255). -/
theorem ExecOutcome.value_frame (h : ExecOutcome s i t) (hval : i ∉ controlCommands) :
    t = State.complete { s with result := t.result, errAddr := t.errAddr } t.status.err := by
  cases h with
  | error | bus | value => rfl
  | nop | canon | buildByte | buildWord | buildComb => exact absurd (by decide) hval

end

/-! ## What a step may change -/

/-- What a host write may change: what the write of a register may, and the answer (R71). -/
theorem hostWrite_frame (s : State) (a n : Nat) (v : Word) :
    hostWrite s a n v =
      { s with
        regs := (hostWrite s a n v).regs
        ie := (hostWrite s a n v).ie
        status :=
          { s.status with done := (hostWrite s a n v).status.done, ovr := (hostWrite s a n v).status.ovr }
        cmd := (hostWrite s a n v).cmd
        inflight := (hostWrite s a n v).inflight
        held := (hostWrite s a n v).held
        response := (hostWrite s a n v).response } := by
  unfold hostWrite
  split
  · split
    · rw [writeReg_frame]
    · rfl
  · rfl

/-- A step that changes the model, a table, RESULT or ERRADDR is a reset or the completion of a command. -/
theorem step_command_or_same {s t : State} (h : step s = .next t) :
    nextEvent s = .reset ∨
      (nextEvent s = .complete ∧ ∃ c i, s.inflight = some c ∧ decode c.word = .ok i ∧
        ExecOutcome { s with schedule := s.schedule.tail } i t) ∨
      (SameTables s t ∧ t.result = s.result ∧ t.errAddr = s.errAddr) := by
  rcases step_next h with ⟨a, n, v, -, rfl⟩ | ⟨a, n, -, rfl⟩ | ⟨he, hturn⟩ | ⟨a, b, -, rfl⟩ | ⟨he, -⟩
  · rw [hostWrite_frame]
    exact .inr (.inr ⟨by constructor <;> rfl, rfl, rfl⟩)
  · obtain ⟨r, hr⟩ := hostRead_response { s with schedule := s.schedule.tail } a n
    rw [hr]
    exact .inr (.inr ⟨by constructor <;> rfl, rfl, rfl⟩)
  · rcases engineTurn_next hturn with ⟨c, i, hc, hd, hexec⟩ | ⟨c, e, -, -, rfl⟩ | ⟨-, rfl⟩
    · exact .inr (.inl ⟨he, c, i, hc, hd, exec_outcome hexec⟩)
    · exact .inr (.inr ⟨by constructor <;> rfl, rfl, rfl⟩)
    · exact .inr (.inr ⟨by constructor <;> rfl, rfl, rfl⟩)
  · exact .inr (.inr ⟨by constructor <;> rfl, rfl, rfl⟩)
  · exact .inl he

/-- Settles O19: of the commands only CANON writes the model or MVALID, and no other event but reset does. -/
theorem onlyCanonWritesTheModel : Obligations.OnlyCanonWritesTheModel := by
  intro s t h hchange
  rcases step_command_or_same h with hreset | ⟨he, c, i, hc, hd, hout⟩ | ⟨hsame, -, -⟩
  · exact .inl hreset
  · rcases hout.model_or_canon with ⟨hm, hv⟩ | ⟨rfl, hok⟩
    · exact absurd hchange (by simp [hm, hv])
    · exact .inr ⟨he, hok, c, hc, hd⟩
  · exact absurd hchange (by simp [hsame.model, hsame.mvalid])

/-- Settles O20: a command writes RESULT only with a value, ERRADDR only on BUS. -/
theorem onlyCompletionsWriteResultAndErrAddr : Obligations.OnlyCompletionsWriteResultAndErrAddr := by
  intro s t h hreset
  rcases step_command_or_same h with he | ⟨he, c, i, hc, hd, hout⟩ | ⟨-, hresult, herr⟩
  · exact absurd he hreset
  · constructor
    · intro hchange
      obtain ⟨hval, hok⟩ := hout.result_or_value.resolve_left hchange
      exact ⟨he, hok, c, i, hc, hd, hval⟩
    · intro hchange
      exact ⟨he, (hout.errAddr_or_bus.resolve_left hchange).2⟩
  · exact ⟨absurd hresult, absurd herr⟩

/-- Settles O21: what a flag implies is the invariant's; what changes it is read off the outcomes of a command. -/
theorem tableFlagsFollowCanonAndBuilds : Obligations.TableFlagsFollowCanonAndBuilds := by
  refine ⟨fun s h => ⟨fun hb => ?_, fun hw => ?_, fun hc => ?_⟩, fun i s t h => (exec_outcome h).flags,
    fun s t h hchange => ?_⟩
  · exact ⟨(h.byteTable hb).model, (h.byteTable hb).content⟩
  · have hbyte := h.byteTable (h.wordTable hw).byte
    exact ⟨hbyte.model, (h.wordTable hw).byte, hbyte.content ▸ (h.wordTable hw).content⟩
  · exact ⟨(h.combTable hc).model, (h.combTable hc).content⟩
  · rcases step_command_or_same h with hreset | ⟨he, c, i, hc, hd, hout⟩ | ⟨hsame, -, -⟩
    · exact .inl hreset
    · rcases hout.flags_or_builds with ⟨hb, hw, hcv⟩ | ⟨hi, hok⟩
      · exact absurd hchange (by simp [hb, hw, hcv])
      · exact .inr ⟨he, hok, c, i, hc, hd, hi⟩
    · exact absurd hchange (by simp [hsame.bvalid, hsame.wvalid, hsame.cvalid])

/-- Settles O23: the outcomes of a value command are a value, BUS and an error. -/
theorem valueCommandsFrame : Obligations.ValueCommandsFrame := by
  intro i s t hval h
  have hout := exec_outcome h
  have hframe := hout.value_frame hval
  refine ⟨hframe, fun hreads => ?_, ?_⟩
  · exact hout.errAddr_or_bus.resolve_right fun hbus => hbus.1 hreads
  · rw [hframe]
    exact ⟨rfl, rfl, rfl, rfl, fun _ => rfl⟩

end Sys2Proof.Machine
end

section
/-! # What the registers of the window show (O12, O13)

The layout of every register made of fields is arithmetic: a field is a quotient and a remainder of the number the
word is made from. The effect of writes follows the constructors of `Reg`. -/

namespace Sys2Proof.Machine

/-! ## Fields of a word made from a number -/

theorem getLsbD_ofNat_eq {n i : Nat} {b : Bool} (hi : i < 64) (h : n / 2 ^ i % 2 = b.toNat) :
    (BitVec.ofNat 64 n).getLsbD i = b := by
  rw [BitVec.getLsbD_ofNat, Nat.testBit_eq_decide_div_mod_eq, h]
  cases b <;> simp [hi]

theorem extractLsb'_ofNat_toNat {n lo len : Nat} (hlen : lo + len ≤ 64) :
    ((BitVec.ofNat 64 n).extractLsb' lo len).toNat = n / 2 ^ lo % 2 ^ len := by
  apply Nat.eq_of_testBit_eq
  intro i
  rw [← Nat.shiftRight_eq_div_pow]
  simp only [BitVec.extractLsb'_toNat, BitVec.toNat_ofNat, Nat.testBit_mod_two_pow, Nat.testBit_shiftRight]
  by_cases hi : i < len
  · simp [hi, show lo + i < 64 by omega]
  · simp [hi]

theorem extractLsb'_ofNat_eq {n lo len : Nat} {v : BitVec len} (hlen : lo + len ≤ 64)
    (h : n / 2 ^ lo % 2 ^ len = v.toNat) : (BitVec.ofNat 64 n).extractLsb' lo len = v :=
  BitVec.eq_of_toNat_eq ((extractLsb'_ofNat_toNat hlen).trans h)

/-! ## Registers made of fields -/

/-- CTRL (R24). -/
theorem ctrlWord_fields (s : State) :
    (ctrlWord s).getLsbD 0 = s.ie ∧ (ctrlWord s).getLsbD 1 = s.regs.little ∧ (ctrlWord s).getLsbD 2 = s.regs.w8 ∧
      (ctrlWord s).extractLsb' 3 61 = 0 := by
  have h0 := Bool.toNat_le s.ie
  have h1 := Bool.toNat_le s.regs.little
  have h2 := Bool.toNat_le s.regs.w8
  refine ⟨getLsbD_ofNat_eq (by decide) ?_, getLsbD_ofNat_eq (by decide) ?_, getLsbD_ofNat_eq (by decide) ?_,
    extractLsb'_ofNat_eq (by decide) ?_⟩
  · omega
  · omega
  · omega
  · show _ = 0; omega

/-- CFG_WIDTH (R27). -/
theorem cfgWidth_fields (w : BitVec 8) :
    (BitVec.ofNat 64 w.toNat).extractLsb' 0 8 = w ∧ (BitVec.ofNat 64 w.toNat).extractLsb' 8 56 = 0 := by
  have hw := w.isLt
  refine ⟨extractLsb'_ofNat_eq (by decide) ?_, extractLsb'_ofNat_eq (by decide) ?_⟩
  · omega
  · show _ = 0; omega

/-- CFG_FLAGS (R28). -/
theorem cfgFlagsWord_fields (r : HostRegs) :
    (cfgFlagsWord r).getLsbD 0 = r.refin ∧ (cfgFlagsWord r).getLsbD 1 = r.refout ∧
      (cfgFlagsWord r).extractLsb' 2 62 = 0 := by
  have h0 := Bool.toNat_le r.refin
  have h1 := Bool.toNat_le r.refout
  refine ⟨getLsbD_ofNat_eq (by decide) ?_, getLsbD_ofNat_eq (by decide) ?_, extractLsb'_ofNat_eq (by decide) ?_⟩
  · omega
  · omega
  · show _ = 0; omega

/-- M_CFG (R35). -/
theorem modelWord_fields (m : Model) :
    (modelWord m).extractLsb' 0 8 = m.width ∧ (modelWord m).getLsbD 8 = m.ref ∧ (modelWord m).getLsbD 9 = m.rev ∧
      (modelWord m).extractLsb' 10 54 = 0 := by
  have h0 := m.width.isLt
  have h1 := Bool.toNat_le m.ref
  have h2 := Bool.toNat_le m.rev
  refine ⟨extractLsb'_ofNat_eq (by decide) ?_, getLsbD_ofNat_eq (by decide) ?_, getLsbD_ofNat_eq (by decide) ?_,
    extractLsb'_ofNat_eq (by decide) ?_⟩
  · omega
  · omega
  · omega
  · show _ = 0; omega

/-- COMB_INFO (R37). -/
theorem combInfoWord_fields (s : State) :
    (combInfoWord s).extractLsb' 0 8 = s.combCycle ∧ (combInfoWord s).extractLsb' 8 8 = s.combBack ∧
      (combInfoWord s).extractLsb' 16 48 = 0 := by
  have h0 := s.combCycle.isLt
  have h1 := s.combBack.isLt
  refine ⟨extractLsb'_ofNat_eq (by decide) ?_, extractLsb'_ofNat_eq (by decide) ?_,
    extractLsb'_ofNat_eq (by decide) ?_⟩
  · omega
  · omega
  · show _ = 0; omega

/-- WTBL_INFO (R38). -/
theorem wtblInfoWord_fields (s : State) :
    (wtblInfoWord s).getLsbD 0 = s.wtblLittle ∧ (wtblInfoWord s).getLsbD 1 = s.wtblW8 ∧
      (wtblInfoWord s).extractLsb' 2 62 = 0 := by
  have h0 := Bool.toNat_le s.wtblLittle
  have h1 := Bool.toNat_le s.wtblW8
  refine ⟨getLsbD_ofNat_eq (by decide) ?_, getLsbD_ofNat_eq (by decide) ?_, extractLsb'_ofNat_eq (by decide) ?_⟩
  · omega
  · omega
  · show _ = 0; omega

/-! ## STATUS -/

theorem ErrCode.code_le (c : ErrCode) : c.code ≤ 9 := by cases c <;> decide

theorem Status.errFlag_eq (f : Status) : f.errFlag = decide (f.err.code ≠ 0) := by
  unfold Status.errFlag
  cases f.err <;> rfl

/-- STATUS (R25). -/
theorem statusWord_fields (s : State) :
    (statusWord s).getLsbD 0 = s.busy ∧ (statusWord s).getLsbD 1 = s.status.done ∧
      (statusWord s).getLsbD 2 = s.status.errFlag ∧ (statusWord s).getLsbD 3 = s.status.ovr ∧
      (statusWord s).extractLsb' 4 4 = 0 ∧ ((statusWord s).extractLsb' 8 8).toNat = s.status.err.code ∧
      (statusWord s).getLsbD 16 = s.status.mvalid ∧ (statusWord s).getLsbD 17 = s.status.bvalid ∧
      (statusWord s).getLsbD 18 = s.status.wvalid ∧ (statusWord s).getLsbD 19 = s.status.cvalid ∧
      (statusWord s).extractLsb' 20 44 = 0 := by
  have h0 := Bool.toNat_le s.busy
  have h1 := Bool.toNat_le s.status.done
  have h2 := Bool.toNat_le s.status.errFlag
  have h3 := Bool.toNat_le s.status.ovr
  have h8 := s.status.err.code_le
  have h16 := Bool.toNat_le s.status.mvalid
  have h17 := Bool.toNat_le s.status.bvalid
  have h18 := Bool.toNat_le s.status.wvalid
  have h19 := Bool.toNat_le s.status.cvalid
  refine ⟨getLsbD_ofNat_eq (by decide) ?_, getLsbD_ofNat_eq (by decide) ?_, getLsbD_ofNat_eq (by decide) ?_,
    getLsbD_ofNat_eq (by decide) ?_, extractLsb'_ofNat_eq (by decide) ?_,
    (extractLsb'_ofNat_toNat (by decide)).trans ?_, getLsbD_ofNat_eq (by decide) ?_,
    getLsbD_ofNat_eq (by decide) ?_, getLsbD_ofNat_eq (by decide) ?_, getLsbD_ofNat_eq (by decide) ?_,
    extractLsb'_ofNat_eq (by decide) ?_⟩
  case refine_5 => show _ = 0; omega
  case refine_11 => show _ = 0; omega
  all_goals omega

/-- A write of STATUS clears DONE and OVR where it has a 1 (R25). -/
theorem Status.writeOneToClear_eq (f : Status) (v : Word) :
    f.writeOneToClear v =
      { f with done := if v.getLsbD 1 then false else f.done, ovr := if v.getLsbD 3 then false else f.ovr } := by
  unfold Status.writeOneToClear
  cases v.getLsbD 1 <;> cases v.getLsbD 3 <;> simp

/-- Settles O13: the fields of the number STATUS is made from, and what a write of it clears. -/
theorem statusLayoutAndWrites : Obligations.StatusLayoutAndWrites := by
  intro s
  obtain ⟨hbusy, hdone, herr, hovr, hlow, hcode, hm, hb, hw, hc, hhigh⟩ := statusWord_fields s
  exact ⟨hbusy, hdone, herr.trans s.status.errFlag_eq, hovr, hlow, hcode, hm, hb, hw, hc, hhigh,
    fun v => congrArg (fun f => { s with status := f }) (s.status.writeOneToClear_eq v)⟩

/-! ## Halves of a 128-bit quantity -/

@[simp] theorem lowHalf_withLow (q : Wide) (v : Word) : lowHalf (withLow q v) = v := BitVec.extractLsb'_append_eq_right

@[simp] theorem highHalf_withHigh (q : Wide) (v : Word) : highHalf (withHigh q v) = v :=
  BitVec.extractLsb'_append_eq_left

@[simp] theorem highHalf_withLow (q : Wide) (v : Word) : highHalf (withLow q v) = highHalf q :=
  BitVec.extractLsb'_append_eq_left

@[simp] theorem lowHalf_withHigh (q : Wide) (v : Word) : lowHalf (withHigh q v) = lowHalf q :=
  BitVec.extractLsb'_append_eq_right

/-! ## Writes and reads -/

/-- A write of any register but STATUS and CMD leaves the other registers as they read: all but the other half of the
same quantity do not depend on what is written. -/
theorem readReg_writeReg_other {s : State} {r r' : Reg} {v : Word} (hs : r ≠ .status) (hc : r ≠ .cmd) (hne : r' ≠ r) :
    readReg (writeReg s r v) r' = readReg s r' := by
  cases r with
  | status => exact absurd rfl hs
  | cmd => exact absurd rfl hc
  | cfgPolyLo =>
    cases r' with | cfgPolyLo => exact absurd rfl hne | cfgPolyHi => exact highHalf_withLow _ _ | _ => rfl
  | cfgPolyHi =>
    cases r' with | cfgPolyHi => exact absurd rfl hne | cfgPolyLo => exact lowHalf_withHigh _ _ | _ => rfl
  | cfgInitLo =>
    cases r' with | cfgInitLo => exact absurd rfl hne | cfgInitHi => exact highHalf_withLow _ _ | _ => rfl
  | cfgInitHi =>
    cases r' with | cfgInitHi => exact absurd rfl hne | cfgInitLo => exact lowHalf_withHigh _ _ | _ => rfl
  | cfgXoroutLo =>
    cases r' with | cfgXoroutLo => exact absurd rfl hne | cfgXoroutHi => exact highHalf_withLow _ _ | _ => rfl
  | cfgXoroutHi =>
    cases r' with | cfgXoroutHi => exact absurd rfl hne | cfgXoroutLo => exact lowHalf_withHigh _ _ | _ => rfl
  | opaLo =>
    cases r' with | opaLo => exact absurd rfl hne | opaHi => exact highHalf_withLow _ _ | _ => rfl
  | opaHi =>
    cases r' with | opaHi => exact absurd rfl hne | opaLo => exact lowHalf_withHigh _ _ | _ => rfl
  | opbLo =>
    cases r' with | opbLo => exact absurd rfl hne | opbHi => exact highHalf_withLow _ _ | _ => rfl
  | opbHi =>
    cases r' with | opbHi => exact absurd rfl hne | opbLo => exact lowHalf_withHigh _ _ | _ => rfl
  | ctrl => cases r' with | ctrl => exact absurd rfl hne | _ => rfl
  | cfgWidth => cases r' with | cfgWidth => exact absurd rfl hne | _ => rfl
  | cfgFlags => cases r' with | cfgFlags => exact absurd rfl hne | _ => rfl
  | addr => cases r' with | addr => exact absurd rfl hne | _ => rfl
  | len => cases r' with | len => exact absurd rfl hne | _ => rfl
  | aux => cases r' with | aux => exact absurd rfl hne | _ => rfl
  | _ => rfl

/-- A wholly writable register reads back what was written. -/
theorem readReg_writeReg_same (s : State) (v : Word) :
    ∀ r ∈ ([.cfgPolyLo, .cfgPolyHi, .cfgInitLo, .cfgInitHi, .cfgXoroutLo, .cfgXoroutHi, .opaLo, .opaHi, .opbLo, .opbHi,
      .addr, .len, .aux] : List Reg), readReg (writeReg s r v) r = v := by
  simp [readReg, writeReg]

/-- Settles O12: the layout of each register made of fields, the defining cases of `writeReg`, and the halves of each
128-bit quantity. -/
theorem registersReadBackWhatWasWritten : Obligations.RegistersReadBackWhatWasWritten := by
  refine ⟨fun s => ?_, fun s => ?_, fun s v => ?_, readReg_writeReg_same, fun s r r' v => readReg_writeReg_other⟩
  · simp [readReg, lowHalf, highHalf]
  · obtain ⟨hie, hlittle, hw8, hctrl⟩ := ctrlWord_fields s
    obtain ⟨hwidth, hwidth0⟩ := cfgWidth_fields s.regs.cfgWidth
    obtain ⟨hrefin, hrefout, hflags⟩ := cfgFlagsWord_fields s.regs
    obtain ⟨hmw, href, hrev, hmcfg⟩ := modelWord_fields s.model
    obtain ⟨hcycle, hback, hcomb⟩ := combInfoWord_fields s
    obtain ⟨hwl, hww, hwtbl⟩ := wtblInfoWord_fields s
    exact ⟨rfl, rfl, rfl, rfl, rfl, hie, hlittle, hw8, hctrl, hwidth, hwidth0, hrefin, hrefout, hflags, hmw, href, hrev,
      hmcfg, hcycle, hback, hcomb, hwl, hww, hwtbl⟩
  · exact ⟨rfl, rfl, rfl, rfl, rfl, rfl, rfl, rfl, rfl, rfl, rfl, rfl, rfl, rfl, rfl, rfl⟩

end Sys2Proof.Machine
end

section
/-! # A placed command word runs next (O5)

A command decodes from its own word, and the step after a placed word is the engine's turn (R80, R255; log 2). -/

namespace Sys2Proof.Machine

/-- A command decodes from its own word (R100, R103). -/
@[simp] theorem decode_encode (i : Instr) : decode (encode i) = .ok i := by
  rw [decode, encode, commandFields_toWord]
  cases i with
  | crcBit e | crcByte e | crcWord e => cases e <;> rfl
  | _ => rfl

/-- The 64 bits of a word stand for that word (R73). -/
@[simp] theorem tableWord_toNat (w : Word) : tableWord 64 w.toNat = some w := by
  simp [tableWord, Nat.mod_eq_of_lt w.isLt, w.isLt]

/-- The step after a placed word is the engine's turn at the state that has accepted it (R80, R255; log 2). -/
theorem step_withFetchWord (s : State) (w : Word) : step (s.withFetchWord 64 w.toNat) = runWord w (s.accept w) := by
  simp only [State.withFetchWord, tableWord_toNat]
  rfl

/-- Settles O5: the placed word is accepted, and it decodes to its command. -/
theorem placedWordRunsNext : Obligations.PlacedWordRunsNext := by
  intro s i
  rw [step_withFetchWord, runWord, decode_encode]

end Sys2Proof.Machine
end

section
/-! # Accesses of the register window (O10, O11)

Which accesses are performed, which bits a write takes and what it reads back, and the map of R20 (R71, R72). -/

namespace Sys2Proof.Machine

/-! ## Proper and improper accesses -/

theorem accessedReg_of_improper {p : Platform} {a n : Nat}
    (h : ¬ (p.regBase ≤ a ∧ n = 8 ∧ (a - p.regBase) % 8 = 0)) : accessedReg p a n = none := if_neg h

theorem accessedReg_of_proper {p : Platform} {a n : Nat} (h : p.regBase ≤ a ∧ n = 8 ∧ (a - p.regBase) % 8 = 0) :
    accessedReg p a n = registerMap[(a - p.regBase) / 8]? := if_pos h

/-- The map covers the 256 bytes of the window (R20). -/
theorem registerMap_isSome_of_lt {k : Nat} (hk : k < 32) : ∃ r, registerMap[k]? = some r :=
  ⟨registerMap[k], List.getElem?_eq_getElem hk⟩

/-- Settles O10: the offset of a proper access is inside the map, and an improper one reaches no register. -/
theorem onlyAligned64BitAccesses : Obligations.OnlyAligned64BitAccesses := by
  intro s a n v htouch
  refine ⟨fun himproper => ?_, fun hproper => ?_⟩
  · simp [hostWrite, hostRead, htouch, accessedReg_of_improper himproper]
  · obtain ⟨hend, -⟩ : a < s.platform.regBase + 256 ∧ s.platform.regBase < a + n := by
      simpa [touchesWindow] using htouch
    obtain ⟨r, hr⟩ := registerMap_isSome_of_lt (k := (a - s.platform.regBase) / 8) (by omega)
    have hreg : accessedReg s.platform a n = some r := (accessedReg_of_proper hproper).trans hr
    refine ⟨r, hr, hreg, ?_, ?_⟩
    · simp [hostWrite, htouch, hreg]
    · simp [hostRead, htouch, hreg]

/-! ## Reserved bits -/

/-- The `n` low bits of a word, as a number. -/
theorem toNat_and_ones (v : Word) {n : Nat} (hn : n ≤ 64) :
    (v &&& BitVec.ofNat 64 (2 ^ n - 1)).toNat = v.toNat % 2 ^ n := by
  have hle : 2 ^ n ≤ 2 ^ 64 := Nat.pow_le_pow_right (by decide) hn
  have hlt : 2 ^ n - 1 < 2 ^ 64 := by omega
  rw [BitVec.toNat_and, BitVec.toNat_ofNat, Nat.mod_eq_of_lt hlt, Nat.and_two_pow_sub_one_eq_mod]

/-- A write of CTRL takes bits 2:0 (R24). -/
theorem writeReg_ctrl_and (s : State) (v : Word) : writeReg s .ctrl v = writeReg s .ctrl (v &&& 7) := by
  simp [writeReg, writeCtrl]

/-- A write of CFG_WIDTH takes bits 7:0 (R27). -/
theorem writeReg_cfgWidth_and (s : State) (v : Word) :
    writeReg s .cfgWidth v = writeReg s .cfgWidth (v &&& 0xFF) := by
  have hlow : (v &&& 0xFF).toNat = v.toNat % 256 := toNat_and_ones v (n := 8) (by decide)
  have h : (v &&& 0xFF).extractLsb' 0 8 = v.extractLsb' 0 8 := by
    apply BitVec.eq_of_toNat_eq
    simp only [BitVec.extractLsb'_toNat, Nat.shiftRight_zero, hlow]
    omega
  simp only [writeReg, h]

/-- A write of CFG_FLAGS takes bits 1:0 (R28). -/
theorem writeReg_cfgFlags_and (s : State) (v : Word) :
    writeReg s .cfgFlags v = writeReg s .cfgFlags (v &&& 3) := by
  simp [writeReg]

/-- A write of STATUS takes bits 1 and 3 (R25). -/
theorem writeReg_status_and (s : State) (v : Word) : writeReg s .status v = writeReg s .status (v &&& 0xA) := by
  simp [writeReg, Status.writeOneToClear]

/-! ## What a register made of fields reads back -/

theorem getLsbD_toNat (v : Word) (i : Nat) : (v.getLsbD i).toNat = v.toNat / 2 ^ i % 2 := Nat.toNat_testBit _ _

theorem readReg_writeReg_ctrl (s : State) (v : Word) : readReg (writeReg s .ctrl v) .ctrl = v &&& 7 := by
  have hlow : (v &&& 7).toNat = v.toNat % 8 := toNat_and_ones v (n := 3) (by decide)
  apply BitVec.eq_of_toNat_eq
  simp only [readReg, writeReg, writeCtrl, ctrlWord, BitVec.toNat_ofNat, getLsbD_toNat, hlow]
  omega

theorem readReg_writeReg_cfgWidth (s : State) (v : Word) :
    readReg (writeReg s .cfgWidth v) .cfgWidth = v &&& 0xFF := by
  have hlow : (v &&& 0xFF).toNat = v.toNat % 256 := toNat_and_ones v (n := 8) (by decide)
  apply BitVec.eq_of_toNat_eq
  simp only [readReg, writeReg, BitVec.toNat_ofNat, BitVec.extractLsb'_toNat, Nat.shiftRight_zero, hlow]
  omega

theorem readReg_writeReg_cfgFlags (s : State) (v : Word) :
    readReg (writeReg s .cfgFlags v) .cfgFlags = v &&& 3 := by
  have hlow : (v &&& 3).toNat = v.toNat % 4 := toNat_and_ones v (n := 2) (by decide)
  apply BitVec.eq_of_toNat_eq
  simp only [readReg, writeReg, cfgFlagsWord, BitVec.toNat_ofNat, getLsbD_toNat, hlow]
  omega

/-! ## The offset map -/

theorem accessedReg_offset (p : Platform) (k : Nat) :
    accessedReg p (p.regBase + k) 8 = if k % 8 = 0 then registerMap[k / 8]? else none := by
  simp [accessedReg]

/-- Each register stands at one offset (R20). -/
theorem registerMap_injective {j k : Nat} (hk : k < 32) (h : registerMap[j]? = registerMap[k]?) : j = k :=
  ((List.getElem?_inj hk (by decide)).1 h.symm).symm

/-- Settles O11: what a write takes and reads back register by register, and the map of the window entry by entry. -/
theorem readOnlyAndReservedWritesIgnored : Obligations.ReadOnlyAndReservedWritesIgnored := by
  refine ⟨fun s v r hr => ?_, fun s v => ?_, fun p e he => ?_, fun k hk => ?_⟩
  · simp only [List.mem_cons, List.not_mem_nil, or_false] at hr
    rcases hr with rfl | rfl | rfl | rfl | rfl | rfl | rfl | rfl | rfl | rfl | rfl | rfl | rfl | rfl <;> rfl
  · exact ⟨writeReg_ctrl_and s v, readReg_writeReg_ctrl s v, writeReg_cfgWidth_and s v,
      readReg_writeReg_cfgWidth s v, writeReg_cfgFlags_and s v, readReg_writeReg_cfgFlags s v,
      writeReg_status_and s v⟩
  · rw [accessedReg_offset]
    revert e
    decide
  · obtain ⟨r, hr⟩ := registerMap_isSome_of_lt hk
    exact ⟨r, hr, fun j _ hj => registerMap_injective hk (hj.trans hr.symm)⟩

end Sys2Proof.Machine
end

section
/-! # The values a racing read may take (O18)

The record of values held follows the memory writes since acceptance (R83; log 6). -/

namespace Sys2Proof.Machine

theorem heldAt_cons_same (h : List Host.Cell) (a : Nat) (b : Byte) : heldAt ((a, b) :: h) a = b :: heldAt h a := by
  simp [heldAt]

theorem heldAt_cons_other (h : List Host.Cell) {a x : Nat} (b : Byte) (hx : x ≠ a) :
    heldAt ((a, b) :: h) x = heldAt h x := by
  simp [heldAt, Ne.symm hx]

theorem readByte_mem_candidates (s : State) (a : Nat) : readByte s a ∈ candidates s a := by
  unfold readByte candidates
  split
  · simp
  · next v vs hv =>
    have hlt : Config.raceChoice s.draws a % (vs.length + 2) < (memGet s.mem a :: v :: vs).length :=
      Nat.mod_lt _ (Nat.succ_pos _)
    rw [hv, List.getD_eq_getElem _ _ hlt]
    exact List.getElem_mem _

/-- A write during a command adds the written byte to the candidates of its address, the one it overwrites being held
(R83). -/
theorem candidates_memoryWrite_same {s : State} (a : Word) (b : Byte) (hb : s.busy = true) :
    candidates (memoryWrite s a b) a.toNat = b :: candidates s a.toNat := by
  simp [candidates, hb, heldAt_cons_same]

theorem candidates_memoryWrite_other {s : State} (a : Word) (b : Byte) (hb : s.busy = true) {x : Nat}
    (hx : x ≠ a.toNat) : candidates (memoryWrite s a b) x = candidates s x := by
  simp [candidates, hb, heldAt_cons_other _ _ hx, memGet_memSet_other _ _ hx]

/-- Settles O18: the held record by the cases of `heldAt`, memory by the laws of `memSet`. -/
theorem racingReadsTakeAValueHeld : Obligations.RacingReadsTakeAValueHeld := by
  refine ⟨readByte_mem_candidates, fun s w a => by simp [candidates], fun s a b hb => ?_, fun s a b => ?_⟩
  · exact ⟨candidates_memoryWrite_same a b hb, fun x => candidates_memoryWrite_other a b hb⟩
  · refine ⟨by simp, fun x hx => memGet_memSet_other _ _ hx, rfl, fun hidle => by simp [hidle]⟩

end Sys2Proof.Machine
end

section
/-! # The reads of a buffer command (O29)

Each buffer command makes the reads of R75 in order, and its value is a function of the bytes they give: the loops of
R166, R186 and R197 are folds over those bytes. The first read that fails ends the command (R258). -/

namespace Sys2Proof.Machine

/-! ## Reads in order -/

theorem Run.bind_assoc {α β γ : Type} (r : Run α) (k : α → Run β) (l : β → Run γ) :
    (r.bind k).bind l = r.bind fun x => (k x).bind l := by
  cases r <;> rfl

/-- The reads `l`, in order, as far as they are answered (R75, R258). -/
def makeReads (s : State) : List (Nat × Nat) → Run Unit
  | [] => .value ()
  | r :: l => (memRead s r.1 r.2).bind fun _ => makeReads s l

theorem makeReads_append (s : State) (l l' : List (Nat × Nat)) :
    makeReads s (l ++ l') = (makeReads s l).bind fun _ => makeReads s l' := by
  induction l with
  | nil => rfl
  | cons r l ih => simp only [List.cons_append, makeReads, ih, Run.bind_assoc]

/-- What follows a read is given the bytes that stand there, whatever the platform answers. -/
theorem memRead_bind {α : Type} (s : State) (a n : Nat) (k : List Byte → Run α) :
    (memRead s a n).bind k = (memRead s a n).bind fun _ => k (readBytes s a n) := by
  rcases memRead_cases s a n with h | h | h <;> rw [h] <;> rfl

/-- The first failing read decides how the reads end (R258). -/
theorem makeReads_of_first_failing {s : State} {l : List (Nat × Nat)} {k a n : Nat}
    (hbefore : ∀ j < k, ∀ r, l[j]? = some r → s.answers r) (hk : l[k]? = some (a, n)) :
    (s.platform.admits a n = false → makeReads s l = .busError a) ∧
    (s.platform.admits a n = true → s.platform.touchesDevice a n = true → makeReads s l = .device) := by
  induction k generalizing l with
  | zero =>
    obtain _ | ⟨r, l⟩ := l
    · simp at hk
    · obtain rfl : r = (a, n) := by simpa using hk
      exact ⟨fun h => by simp [makeReads, memRead, h], fun h hd => by simp [makeReads, memRead, h, hd]⟩
  | succ k ih =>
    obtain _ | ⟨r, l⟩ := l
    · simp at hk
    · obtain ⟨hadmits, hdevice⟩ := hbefore 0 (Nat.succ_pos k) r rfl
      have hread := memRead_of_answers hadmits hdevice
      simp only [makeReads, hread, Run.bind_value]
      exact ih (fun j hj r hr => hbefore (j + 1) (Nat.succ_lt_succ hj) r hr) (by simpa using hk)

/-! ## Byte by byte -/

theorem byteReads_succ (a n : Nat) : byteReads a (n + 1) = (a, 1) :: byteReads (a + 1) n := by
  simp [byteReads, List.range_succ_eq_map, Function.comp_def, Nat.add_comm, Nat.add_left_comm]

theorem readBytes_succ (s : State) (a n : Nat) : readBytes s a (n + 1) = readByte s a :: readBytes s (a + 1) n := by
  simp [readBytes, List.range_succ_eq_map, Function.comp_def, Nat.add_comm, Nat.add_left_comm]

/-- The register `q` after the bytes `bs`, each advancing it by `upd`. -/
def foldBytes (upd : Nat → Nat → Nat) (q : Nat) (bs : List Byte) : Nat := bs.foldl (fun q b => upd q b.toNat) q

theorem foldBytes_readBytes_succ (s : State) (upd : Nat → Nat → Nat) (q a n : Nat) :
    foldBytes upd q (readBytes s a (n + 1)) =
      foldBytes upd (upd q ((readBytes s a 1).getD 0 0).toNat) (readBytes s (a + 1) n) := by
  rw [readBytes_succ]
  rfl

/-- Reading and advancing byte by byte is making the reads and folding over the bytes (R75). -/
theorem feedBuffer_eq (s : State) (upd : Nat → Nat → Nat) (n a q : Nat) :
    feedBuffer s upd n a q =
      (makeReads s (byteReads a n)).bind fun _ => .value (foldBytes upd q (readBytes s a n)) := by
  induction n generalizing a q with
  | zero => rfl
  | succ n ih =>
    rw [feedBuffer, memRead_bind, byteReads_succ, makeReads, Run.bind_assoc, foldBytes_readBytes_succ]
    simp only [ih]

/-! ## Word by word -/

/-- `n` reads of words of `b` bytes from `a` up (R75). -/
def wordReadsFrom (b a n : Nat) : List (Nat × Nat) := (List.range n).map fun i => (a + b * i, b)

/-- The bytes of `n` words of `b` bytes from `a` up (R76). -/
def readWords (s : State) (b a n : Nat) : List (List Byte) := (List.range n).map fun i => readBytes s (a + b * i) b

theorem wordReadsFrom_succ (b a n : Nat) : wordReadsFrom b a (n + 1) = (a, b) :: wordReadsFrom b (a + b) n := by
  simp [wordReadsFrom, List.range_succ_eq_map, Function.comp_def, Nat.mul_succ, Nat.add_assoc, Nat.add_comm b]

theorem readWords_succ (s : State) (b a n : Nat) :
    readWords s b a (n + 1) = readBytes s a b :: readWords s b (a + b) n := by
  simp [readWords, List.range_succ_eq_map, Function.comp_def, Nat.mul_succ, Nat.add_assoc, Nat.add_comm b]

/-- The placed register `v` after the words `ws` (R195). -/
def foldWords (t : List (List Word)) (b : Nat) (little : Bool) (v : Nat) (ws : List (List Byte)) : Nat :=
  ws.foldl (fun v bs => wordStep t b little v (wordOfBytes little bs)) v

theorem bulk_eq (s : State) (b : Nat) (little : Bool) (n a v : Nat) :
    bulk s b little n a v =
      (makeReads s (wordReadsFrom b a n)).bind fun _ =>
        .value (foldWords s.wordTable b little v (readWords s b a n)) := by
  induction n generalizing a v with
  | zero => rfl
  | succ n ih =>
    rw [bulk, memRead_bind, wordReadsFrom_succ, makeReads, Run.bind_assoc, readWords_succ]
    simp only [ih]
    rfl

/-- The register `q` after the words `ws` of the bulk loop: placed, advanced and taken out again, if there are words
(R197). -/
def bulkOf (s : State) (b : Nat) (little : Bool) (q : Nat) (ws : List (List Byte)) : Nat :=
  if ws.isEmpty then q else unplace s.model b little (foldWords s.wordTable b little (place s.model b little q) ws)

theorem bulkPart_eq (s : State) {b : Nat} (little : Bool) (hb : 0 < b) (n a q : Nat) :
    bulkPart s b little n a q =
      (makeReads s (wordReadsFrom b a (n / b))).bind fun _ =>
        .value (bulkOf s b little q (readWords s b a (n / b))) := by
  unfold bulkPart
  split
  · next hle =>
    have hwords : (readWords s b a (n / b)).isEmpty = false := by
      have hpos := Nat.div_pos hle hb
      simp [readWords]; omega
    simp [bulk_eq, Run.bind_assoc, bulkOf, hwords]
  · next hlt =>
    rw [Nat.div_eq_of_lt (Nat.lt_of_not_le hlt)]
    rfl

/-! ## The prologue -/

theorem prologueLength_of_aligned {b a : Nat} (n : Nat) (h : a % b = 0) : prologueLength b a n = 0 := by
  simp [prologueLength, h]

theorem prologueLength_succ (w8 : Bool) {a : Nat} (n : Nat) (h : a % wordBytes w8 ≠ 0) :
    prologueLength (wordBytes w8) a (n + 1) = prologueLength (wordBytes w8) (a + 1) n + 1 := by
  cases w8 <;> simp only [prologueLength, wordBytes, Bool.false_eq_true, if_false, if_true] at h ⊢ <;> omega

theorem prologueLength_le (b a n : Nat) : prologueLength b a n ≤ n := Nat.min_le_left _ _

/-- The prologue reads the bytes before the first aligned address, and leaves the rest (R197). -/
theorem prologue_eq (s : State) (w8 : Bool) (n a q : Nat) :
    prologue s (wordBytes w8) n a q =
      (makeReads s (byteReads a (prologueLength (wordBytes w8) a n))).bind fun _ =>
        .value (a + prologueLength (wordBytes w8) a n, n - prologueLength (wordBytes w8) a n,
          foldBytes (tableStep s.model s.byteTable) q (readBytes s a (prologueLength (wordBytes w8) a n))) := by
  induction n generalizing a q with
  | zero =>
    rw [Nat.le_zero.1 (prologueLength_le (wordBytes w8) a 0)]
    rfl
  | succ n ih =>
    rw [prologue]
    split
    · next h => rw [prologueLength_of_aligned _ h]; rfl
    · next h =>
      rw [prologueLength_succ w8 n h, memRead_bind, byteReads_succ, makeReads, Run.bind_assoc,
        foldBytes_readBytes_succ]
      simp only [ih, Nat.add_sub_add_right, Nat.add_assoc, Nat.add_comm 1]

/-! ## The three buffer commands -/

/-- CRC_WORD's value from the bytes before the words, the words, and the bytes after them (R197). -/
def wordCrcOf (s : State) (first : List Byte) (words : List (List Byte)) (last : List Byte) : Nat :=
  post s.model (unalignReg s.model
    (foldBytes (tableStep s.model s.byteTable)
      (bulkOf s (wordBytes s.wtblW8) s.wtblLittle
        (foldBytes (tableStep s.model s.byteTable) (alignReg s.model (crcOperand s)) first) words)
      last))

/-- The bytes of CRC_WORD's buffer before its first aligned word. -/
abbrev State.firstBytes (s : State) : Nat := prologueLength (wordBytes s.wtblW8) (opAddr s) (opLen s)

/-- The bytes of CRC_WORD's buffer after its prologue. -/
abbrev State.restBytes (s : State) : Nat := opLen s - s.firstBytes

/-- The value of a buffer command, from the bytes of its buffer (R166, R186, R197). -/
def bufferValue (s : State) : Instr → Nat
  | .crcBit _ => post s.model (foldBytes (feed s.model) (crcOperand s) (readBytes s (opAddr s) (opLen s)))
  | .crcByte _ =>
    post s.model (unalignReg s.model (foldBytes (tableStep s.model s.byteTable) (alignReg s.model (crcOperand s))
      (readBytes s (opAddr s) (opLen s))))
  | .crcWord _ =>
    wordCrcOf s (readBytes s (opAddr s) s.firstBytes)
      (readWords s (wordBytes s.wtblW8) (opAddr s + s.firstBytes) (s.restBytes / wordBytes s.wtblW8))
      (readBytes s (opAddr s + s.firstBytes + wordBytes s.wtblW8 * (s.restBytes / wordBytes s.wtblW8))
        (s.restBytes % wordBytes s.wtblW8))
  | _ => 0

/-- A buffer command's reads, and then its value. -/
def bufferRun (s : State) (i : Instr) : Run Nat :=
  (makeReads s (readsOf s i)).bind fun _ => .value (bufferValue s i)

theorem bitCrc_eq (s : State) : bitCrc s = bufferRun s (.crcBit false) := by
  rw [bitCrc, feedBuffer_eq, Run.bind_assoc]
  rfl

theorem byteCrc_eq (s : State) : byteCrc s = bufferRun s (.crcByte false) := by
  rw [byteCrc, feedBuffer_eq, Run.bind_assoc]
  rfl

theorem wordCrc_eq (s : State) : wordCrc s = bufferRun s (.crcWord false) := by
  have hreads : readsOf s (.crcWord false) =
      byteReads (opAddr s) s.firstBytes
        ++ wordReadsFrom (wordBytes s.wtblW8) (opAddr s + s.firstBytes) (s.restBytes / wordBytes s.wtblW8)
        ++ byteReads (opAddr s + s.firstBytes + wordBytes s.wtblW8 * (s.restBytes / wordBytes s.wtblW8))
            (s.restBytes % wordBytes s.wtblW8) := rfl
  rw [bufferRun, hreads, makeReads_append, makeReads_append, wordCrc]
  simp only [prologue_eq, bulkPart_eq s s.wtblLittle (wordBytes_pos s.wtblW8), feedBuffer_eq, Run.bind_assoc,
    Run.bind_value]
  rfl

/-- A buffer command whose checks pass makes its reads and completes with its value. -/
theorem exec_of_bufferChecksPass {s : State} {i : Instr} (h : bufferChecksPass s i) :
    exec i s = finishRun s (bufferRun s i) := by
  match i, h with
  | .crcBit false, ⟨hm, hbuf⟩ =>
    rw [← bitCrc_eq]
    exact (if_pos hm).trans (if_pos hbuf)
  | .crcByte false, ⟨hm, hw, hb, hbuf⟩ =>
    rw [← byteCrc_eq]
    exact (if_pos hm).trans ((if_pos hw).trans ((if_pos hb).trans (if_pos hbuf)))
  | .crcWord false, ⟨hm, hw, hv, hbuf⟩ =>
    rw [← wordCrc_eq]
    exact (if_pos hm).trans ((if_pos hw).trans ((if_pos hv).trans (if_pos hbuf)))

/-- Settles O29: with the checks passed the command is its reads, and the first failing one ends it. -/
theorem firstFailingReadEndsTheCommand : Obligations.FirstFailingReadEndsTheCommand := by
  intro i s k a n hchecks hbefore hk
  obtain ⟨hbus, hdevice⟩ := makeReads_of_first_failing hbefore hk
  rw [exec_of_bufferChecksPass hchecks, bufferRun]
  refine ⟨fun h => ?_, fun h hd => ?_⟩
  · rw [hbus h]; rfl
  · rw [hdevice h hd]; rfl

end Sys2Proof.Machine
end

section
/-! # What a command does not depend on (O16, O30)

A command sees the host registers only through the snapshot and memory only through its buffer, and writes neither. With
other host registers, IE and memory around it (`State.surround`) it does the same (R70, R75, R80). -/

namespace Sys2Proof.Machine

/-! ## Other registers and memory around a command -/

/-- The state with other host registers, IE and memory. -/
def State.surround (r : HostRegs) (ie : Bool) (m : List Host.Cell) (s : State) : State :=
  { s with regs := r, ie := ie, mem := m }

theorem mapNext_congr {f g : State → State} {o : StepResult} (h : ∀ t, o = .next t → f t = g t) :
    mapNext f o = mapNext g o := by
  cases o with
  | next t => exact congrArg _ (h t rfl)
  | fault r => rfl
  | refused r => rfl

/-- No command writes host registers, IE or memory (R70, R80). -/
theorem ExecOutcome.surroundings {s t : State} {i : Instr} (h : ExecOutcome s i t) :
    t.regs = s.regs ∧ t.ie = s.ie ∧ t.mem = s.mem := by
  cases h <;> exact ⟨rfl, rfl, rfl⟩

/-! ## The bytes of the buffer -/

/-- Where memory agrees, a read takes the same byte, held values included (R83). -/
theorem readByte_surround {s : State} (r : HostRegs) (ie : Bool) {m : List Host.Cell} {a : Nat}
    (h : memGet m a = memGet s.mem a) : readByte (s.surround r ie m) a = readByte s a := by
  simp only [readByte, State.surround, h]

/-- The bytes `a .. a + n − 1` read the same in both states. -/
def SameBytes (s t : State) (a n : Nat) : Prop := ∀ x, a ≤ x → x < a + n → readByte t x = readByte s x

section
variable {s t : State} {a n : Nat}

theorem SameBytes.mono {a' n' : Nat} (h : SameBytes s t a n) (ha : a ≤ a') (hn : a' + n' ≤ a + n) :
    SameBytes s t a' n' :=
  fun x hx hlt => h x (ha.trans hx) (hlt.trans_le hn)

theorem SameBytes.readBytes (h : SameBytes s t a n) : readBytes t a n = readBytes s a n :=
  List.map_congr_left fun i hi => h (a + i) (Nat.le_add_right a i) (Nat.add_lt_add_left (List.mem_range.1 hi) a)

theorem SameBytes.readWords {b k : Nat} (h : SameBytes s t a n) (hk : b * k ≤ n) :
    readWords t b a k = readWords s b a k := by
  refine List.map_congr_left fun i hi => (h.mono (Nat.le_add_right a _) ?_).readBytes
  have hword : b * (i + 1) ≤ b * k := Nat.mul_le_mul_left b (List.mem_range.1 hi)
  rw [Nat.mul_succ] at hword
  omega

end

/-! ## The checks -/

section
variable {s : State} {r : HostRegs} {ie : Bool} {m : List Host.Cell} {k k' : StepResult}

/-- A check that is the same in both states: it fails with its error, or the command goes on. -/
theorem check_surround {c : Prop} [Decidable c] {code : ErrCode} (h : k' = mapNext (State.surround r ie m) k) :
    (if c then k' else raiseError (s.surround r ie m) code) =
      mapNext (State.surround r ie m) (if c then k else raiseError s code) := by
  rw [apply_ite (mapNext _), h]
  rfl

theorem needModel_surround (h : k' = mapNext (State.surround r ie m) k) :
    needModel (s.surround r ie m) k' = mapNext (State.surround r ie m) (needModel s k) := check_surround h

theorem needWidth_surround {limit : Nat} (h : k' = mapNext (State.surround r ie m) k) :
    needWidth (s.surround r ie m) limit k' = mapNext (State.surround r ie m) (needWidth s limit k) := check_surround h

theorem needTable_surround {flag : Bool} (h : k' = mapNext (State.surround r ie m) k) :
    needTable (s.surround r ie m) flag k' = mapNext (State.surround r ie m) (needTable s flag k) := check_surround h

theorem needArg_surround {ok : Bool} (h : k' = mapNext (State.surround r ie m) k) :
    needArg (s.surround r ie m) ok k' = mapNext (State.surround r ie m) (needArg s ok k) := check_surround h

/-! ## The ends of a command -/

theorem finishWalk_surround (o : Option Nat) :
    finishWalk (s.surround r ie m) o = mapNext (State.surround r ie m) (finishWalk s o) := by
  cases o <;> rfl

theorem finishRun_surround (x : Run Nat) :
    finishRun (s.surround r ie m) x = mapNext (State.surround r ie m) (finishRun s x) := by
  cases x <;> rfl

/-! ## Operands from the snapshot -/

variable (hregs : (s.surround r ie m).commandRegs = s.commandRegs)
include hregs

theorem needBuffer_surround (h : k' = mapNext (State.surround r ie m) k) :
    needBuffer (s.surround r ie m) k' = mapNext (State.surround r ie m) (needBuffer s k) := by
  rw [needBuffer, hregs]
  exact check_surround h

theorem opA_surround : opA (s.surround r ie m) = opA s := by rw [opA, hregs]; rfl

theorem opB_surround : opB (s.surround r ie m) = opB s := by rw [opB, hregs]; rfl

theorem opAddr_surround : opAddr (s.surround r ie m) = opAddr s := by rw [opAddr, hregs]; rfl

theorem opLen_surround : opLen (s.surround r ie m) = opLen s := by rw [opLen, hregs]; rfl

theorem opAux_surround : opAux (s.surround r ie m) = opAux s := by rw [opAux, hregs]; rfl

theorem crcOperand_surround : crcOperand (s.surround r ie m) = crcOperand s := by
  rw [crcOperand, opA_surround hregs]; rfl

theorem zerosRegister_surround : zerosRegister (s.surround r ie m) = zerosRegister s := by
  rw [zerosRegister, zerosByTable, opLen_surround hregs, crcOperand_surround hregs]; rfl

/-! ## The run of a buffer command -/

theorem readsOf_surround (i : Instr) : readsOf (s.surround r ie m) i = readsOf s i := by
  match i with
  | .crcBit false | .crcByte false | .crcWord false =>
    rw [readsOf, opAddr_surround hregs, opLen_surround hregs]
    rfl
  | .crcBit true | .crcByte true | .crcWord true => rfl
  | .nop | .canon | .buildByte | .buildWord | .buildComb | .crcRem | .reverse | .mulmod | .x8n | .zeros | .combine
  | .tblrd => rfl

omit hregs in
/-- Whether a read is answered is the platform's, not memory's (R74). -/
theorem memRead_bind_const_surround {α : Type} (a n : Nat) (k : Run α) :
    ((memRead (s.surround r ie m) a n).bind fun _ => k) = (memRead s a n).bind fun _ => k := by
  have hp : (s.surround r ie m).platform = s.platform := rfl
  rw [memRead, memRead, hp]
  split_ifs <;> rfl

omit hregs in
theorem makeReads_surround (l : List (Nat × Nat)) : makeReads (s.surround r ie m) l = makeReads s l := by
  induction l with
  | nil => rfl
  | cons a l ih => rw [makeReads, makeReads, ih, memRead_bind_const_surround]

/-- A buffer command's value comes from the bytes of its buffer (R75). -/
theorem bufferValue_surround (hbytes : SameBytes s (s.surround r ie m) (opAddr s) (opLen s)) (i : Instr) :
    bufferValue (s.surround r ie m) i = bufferValue s i := by
  cases i with
  | crcBit e =>
    rw [bufferValue, crcOperand_surround hregs, opAddr_surround hregs, opLen_surround hregs, hbytes.readBytes]
    rfl
  | crcByte e =>
    rw [bufferValue, crcOperand_surround hregs, opAddr_surround hregs, opLen_surround hregs, hbytes.readBytes]
    rfl
  | crcWord e =>
    have hfirst : (s.surround r ie m).firstBytes = s.firstBytes := by
      rw [State.firstBytes, opAddr_surround hregs, opLen_surround hregs]; rfl
    have hrest : (s.surround r ie m).restBytes = s.restBytes := by
      rw [State.restBytes, hfirst, opLen_surround hregs]
    have hsize : (s.surround r ie m).wtblW8 = s.wtblW8 := rfl
    have hlen : s.firstBytes + s.restBytes = opLen s := Nat.add_sub_of_le (prologueLength_le _ _ _)
    have hsplit := Nat.div_add_mod s.restBytes (wordBytes s.wtblW8)
    have hprologue := (hbytes.mono (a' := opAddr s) (n' := s.firstBytes) (by omega) (by omega)).readBytes
    have hwords := (hbytes.mono (a' := opAddr s + s.firstBytes) (n' := s.restBytes) (by omega) (by omega)).readWords
      (Nat.mul_div_le s.restBytes (wordBytes s.wtblW8))
    have hlast := (hbytes.mono
      (a' := opAddr s + s.firstBytes + wordBytes s.wtblW8 * (s.restBytes / wordBytes s.wtblW8))
      (n' := s.restBytes % wordBytes s.wtblW8) (by omega) (by omega)).readBytes
    rw [bufferValue, hfirst, hrest, hsize, opAddr_surround hregs, hprologue, hwords, hlast, wordCrcOf,
      crcOperand_surround hregs]
    rfl
  | _ => rfl

theorem bufferRun_surround (hbytes : SameBytes s (s.surround r ie m) (opAddr s) (opLen s)) (i : Instr) :
    bufferRun (s.surround r ie m) i = bufferRun s i := by
  rw [bufferRun, readsOf_surround hregs, makeReads_surround, bufferValue_surround hregs hbytes, bufferRun]

/-! ## The commands -/

omit hregs in
theorem readTable_surround (sel n k : Nat) :
    readTable (s.surround r ie m) sel n k = mapNext (State.surround r ie m) (readTable s sel n k) := by
  match sel with
  | 0 => exact needTable_surround rfl
  | 1 => exact needTable_surround (needArg_surround rfl)
  | _ + 2 => exact needTable_surround (needArg_surround rfl)

/-- A command with the same snapshot and the same bytes in its buffer does the same (R70, R75, R80). -/
theorem exec_surround (hbytes : SameBytes s (s.surround r ie m) (opAddr s) (opLen s)) (i : Instr) :
    exec i (s.surround r ie m) = mapNext (State.surround r ie m) (exec i s) := by
  cases i with
  | nop => rfl
  | canon =>
    show execCanon _ = mapNext _ (execCanon s)
    rw [execCanon, hregs, execCanon, apply_ite (mapNext _)]
    rfl
  | buildByte => exact needModel_surround (needWidth_surround rfl)
  | buildWord =>
    show execBuildWord _ = _
    rw [execBuildWord, hregs]
    exact needModel_surround (needWidth_surround (needTable_surround rfl))
  | buildComb => exact needModel_surround (needWidth_surround rfl)
  | crcBit e =>
    refine needModel_surround ?_
    cases e with
    | true => rfl
    | false =>
      refine needBuffer_surround hregs ?_
      rw [bitCrc_eq, bufferRun_surround hregs hbytes, finishRun_surround, bitCrc_eq]
  | crcByte e =>
    refine needModel_surround (needWidth_surround (needTable_surround ?_))
    cases e with
    | true => rfl
    | false =>
      refine needBuffer_surround hregs ?_
      rw [byteCrc_eq, bufferRun_surround hregs hbytes, finishRun_surround, byteCrc_eq]
  | crcWord e =>
    refine needModel_surround (needWidth_surround (needTable_surround ?_))
    cases e with
    | true => rfl
    | false =>
      refine needBuffer_surround hregs ?_
      rw [wordCrc_eq, bufferRun_surround hregs hbytes, finishRun_surround, wordCrc_eq]
  | crcRem =>
    show execCrcRem _ = _
    rw [execCrcRem, opAux_surround hregs, crcOperand_surround hregs, remValue, opB_surround hregs]
    exact needModel_surround (needArg_surround rfl)
  | reverse =>
    show execReverse _ = _
    rw [execReverse, opAux_surround hregs, opA_surround hregs]
    exact needArg_surround rfl
  | mulmod =>
    show execMulmod _ = _
    rw [execMulmod, opA_surround hregs, opB_surround hregs]
    exact needModel_surround (needWidth_surround rfl)
  | x8n =>
    show execX8n _ = _
    rw [execX8n, opLen_surround hregs]
    exact needModel_surround (needWidth_surround (needTable_surround (finishWalk_surround _)))
  | zeros =>
    show execZeros _ = _
    rw [execZeros, zerosRegister_surround hregs]
    exact needModel_surround (finishWalk_surround _)
  | combine =>
    show execCombine _ = _
    rw [execCombine, opA_surround hregs, opB_surround hregs, opLen_surround hregs]
    exact needModel_surround (needWidth_surround (needTable_surround (finishWalk_surround _)))
  | tblrd =>
    show execTblrd _ = _
    rw [execTblrd, opAux_surround hregs]
    exact needModel_surround (needArg_surround (readTable_surround _ _ _))

end

/-- Settles O30: the surroundings differ in memory alone, and no command writes host registers or IE. -/
theorem commandsDependOnlyOnTheBuffer : Obligations.CommandsDependOnlyOnTheBuffer := by
  intro i s m hagree
  have hbytes : SameBytes s (s.surround s.regs s.ie m) (opAddr s) (opLen s) :=
    fun x hx hlt => readByte_surround s.regs s.ie (hagree x hx hlt)
  refine (exec_surround rfl hbytes i).trans (mapNext_congr fun t ht => ?_)
  obtain ⟨hregs, hie, -⟩ := (exec_outcome ht).surroundings
  simp only [State.surround, ← hregs, ← hie]

/-! ## While a command is in flight -/

/-- In flight, other host registers and IE leave the command's registers as they are (R80). -/
theorem commandRegs_surround_of_busy {s : State} (r : HostRegs) (ie : Bool) (m : List Host.Cell)
    (h : s.busy = true) : (s.surround r ie m).commandRegs = s.commandRegs := by
  obtain ⟨c, hc⟩ := Option.isSome_iff_exists.1 h
  exact (commandRegs_of_inflight (s := s.surround r ie m) hc).trans (commandRegs_of_inflight hc).symm

/-- A command in flight does the same whatever the host writes to registers and IE (R80). -/
theorem exec_hostRegs_of_busy {s : State} (r : HostRegs) (ie : Bool) (h : s.busy = true) (i : Instr) :
    exec i { s with regs := r, ie := ie } = mapNext (fun t => { t with regs := r, ie := ie }) (exec i s) := by
  have hbytes : SameBytes s (s.surround r ie s.mem) (opAddr s) (opLen s) := fun _ _ _ => rfl
  refine (exec_surround (commandRegs_surround_of_busy r ie s.mem h) hbytes i).trans (mapNext_congr fun t ht => ?_)
  obtain ⟨-, -, hmem⟩ := (exec_outcome ht).surroundings
  rw [State.surround, ← hmem]

/-- A register write while a command is in flight keeps its snapshot: a CMD write is dropped (R257, R284). -/
theorem writeReg_inflight_of_busy {s : State} (r : Reg) (v : Word) (h : s.busy = true) :
    (writeReg s r v).inflight = s.inflight := by
  cases r with
  | cmd => simp [writeReg, writeCommand, h]
  | _ => rfl

theorem hostWrite_inflight_of_busy {s : State} (a n : Nat) (v : Word) (h : s.busy = true) :
    (hostWrite s a n v).inflight = s.inflight := by
  unfold hostWrite
  split
  · split
    · next r _ => exact writeReg_inflight_of_busy r v h
    · rfl
  · rfl

/-- A step that neither completes the command in flight nor resets the block keeps the snapshot (R80). -/
theorem step_inflight_of_busy {s t : State} (hb : s.busy = true) (hcomplete : nextEvent s ≠ .complete)
    (hreset : nextEvent s ≠ .reset) (h : step s = .next t) : t.inflight = s.inflight := by
  rcases step_next h with ⟨a, n, v, -, rfl⟩ | ⟨a, n, -, rfl⟩ | ⟨he, -⟩ | ⟨a, b, -, rfl⟩ | ⟨he, -⟩
  · exact hostWrite_inflight_of_busy (s := { s with schedule := s.schedule.tail }) a n v hb
  · obtain ⟨r, hr⟩ := hostRead_response { s with schedule := s.schedule.tail } a n
    rw [hr]
  · exact absurd he hcomplete
  · rfl
  · exact absurd he hreset

/-- Settles O16: acceptance by definition, the command by `exec_surround`, and the other events by what a step may
change. -/
theorem commandsRunOnTheSnapshot : Obligations.CommandsRunOnTheSnapshot := by
  refine ⟨fun s v hidle => ?_, fun i s r ie hb => exec_hostRegs_of_busy r ie hb i,
    fun s t hb hcomplete hreset h => ?_⟩
  · simp [writeReg, writeCommand, hidle, State.accept]
  · obtain hr | ⟨hc, -⟩ | ⟨hsame, -, -⟩ := step_command_or_same h
    · exact absurd hr hreset
    · exact absurd hc hcomplete
    · exact ⟨step_inflight_of_busy hb hcomplete hreset h, hsame.model, hsame.byteTable, hsame.wordTable,
        hsame.combTable, hsame.combCycle, hsame.combBack, hsame.wtblLittle, hsame.wtblW8, hsame.mvalid, hsame.bvalid,
        hsame.wvalid, hsame.cvalid⟩

end Sys2Proof.Machine
end

section
/-! # The command word: decode and encode (O1, O2, O3)

A word is its three fields, and the decoder answers a command for exactly the fields of that command. So the legal
words are the words of the commands, and a word is illegal in the three ways of R105. -/

namespace Sys2Proof.Machine

/-! ## A word is its fields -/

@[simp] theorem commandFields_op_toNat (w : Word) : (commandFields w).op.toNat = w.toNat % 256 := by
  simp [commandFields]

@[simp] theorem commandFields_e_toNat (w : Word) : (commandFields w).e.toNat = w.toNat / 256 % 2 := getLsbD_toNat w 8

@[simp] theorem commandFields_rsvd_toNat (w : Word) : (commandFields w).rsvd.toNat = w.toNat >>> 9 := by
  have hw := w.isLt
  simp only [commandFields, BitVec.extractLsb'_toNat, Nat.shiftRight_eq_div_pow]
  omega

/-- The word made of a word's fields is that word (R100). -/
@[simp] theorem toWord_commandFields (w : Word) : (commandFields w).toWord = w := by
  apply BitVec.eq_of_toNat_eq
  rw [toWord_toNat, commandFields_op_toNat, commandFields_e_toNat, commandFields_rsvd_toNat,
    Nat.shiftRight_eq_div_pow]
  omega

/-! ## The decoder on fields -/

/-- What the map of R103 answers: the command of that opcode, which keeps E where the opcode has an E form. -/
theorem commandOfOpcode_eq_some {op : BitVec 8} {e : Bool} {i : Instr} (h : commandOfOpcode op e = some i) :
    i.opcode = op ∧ i.noData = (e && noDataOpcodes.contains op) := by
  unfold commandOfOpcode at h
  split at h <;> cases h
  all_goals
    rename op.toNat = _ => hop
    simp [Instr.opcode, Instr.noData, noDataOpcodes, ← BitVec.toNat_inj, hop]

/-- The opcodes that have a command are those of R103's list. -/
theorem commandOfOpcode_isSome (op : BitVec 8) (e : Bool) :
    (commandOfOpcode op e).isSome = true ↔ op ∈ assignedOpcodes := by
  have hlist : ∀ op ∈ assignedOpcodes, ∀ e, (commandOfOpcode op e).isSome = true := by decide
  have hopcode (i : Instr) : i.opcode ∈ assignedOpcodes := by cases i <;> simp [Instr.opcode, assignedOpcodes]
  refine ⟨fun h => ?_, fun h => hlist op h e⟩
  obtain ⟨i, hi⟩ := Option.isSome_iff_exists.1 h
  exact (commandOfOpcode_eq_some hi).1 ▸ hopcode i

/-- Fields decode to a command only where they are that command's. -/
theorem eq_fields_of_decodeFields {f : CommandFields} {i : Instr} (h : decodeFields f = .ok i) : f = i.fields := by
  obtain ⟨op, e, rsvd⟩ := f
  unfold decodeFields at h
  split at h
  · next hr =>
    split at h
    · cases h
    · next hi =>
      split at h
      · next he =>
        cases h
        obtain ⟨rfl, hdata⟩ := commandOfOpcode_eq_some hi
        have hkeep : i.noData = e := by cases e <;> simp_all [CommandFields.eIsAllowed]
        simpa [Instr.fields, hkeep, CommandFields.rsvdIsZero] using hr
      · cases h
  · cases h

/-- Fields are refused exactly when they fail one of R105's checks. -/
theorem decodeFields_eq_error_iff (f : CommandFields) : (∃ e, decodeFields f = .error e) ↔ f.wf = false := by
  have hsome := commandOfOpcode_isSome f.op f.e
  cases hr : f.rsvdIsZero with
  | false => simp [decodeFields, CommandFields.wf, hr]
  | true =>
    cases hc : commandOfOpcode f.op f.e with
    | none =>
      have hop : f.opIsAssigned = false := by simpa [CommandFields.opIsAssigned, hc] using hsome
      simp [decodeFields, CommandFields.wf, hr, hc, hop]
    | some i =>
      have hop : f.opIsAssigned = true := by simpa [CommandFields.opIsAssigned, hc] using hsome
      cases he : f.eIsAllowed <;> simp [decodeFields, CommandFields.wf, hr, hc, hop, he]

/-! ## The legal words -/

/-- A word decodes to a command exactly when it is the command's word (R100, R103). -/
theorem decode_eq_ok_iff {w : Word} {i : Instr} : decode w = .ok i ↔ w = encode i := by
  refine ⟨fun h => ?_, fun h => h ▸ decode_encode i⟩
  rw [encode, ← eq_fields_of_decodeFields h, toWord_commandFields]

/-- Settles O2: the decoder answers a command for its own fields only, and a word is its fields. -/
theorem decodeAndEncodeAgree : Obligations.DecodeAndEncodeAgree := fun _ _ _ => decode_eq_ok_iff

/-- Settles O1: the words are the encodings, and an encoding decodes to its command. -/
theorem commandWordsDecode : Obligations.CommandWordsDecode := by
  intro p hp
  have hencode : encode p.1 = p.2 := by
    revert p
    decide
  exact ⟨hencode, decode_eq_ok_iff.2 hencode.symm⟩

theorem encode_injective : Function.Injective encode := fun i j h => by
  have hj := decode_encode j
  rw [← h, decode_encode] at hj
  exact Except.ok.inj hj

/-- The eighteen commands, in the order of R107's table. -/
def allCommands : List Instr :=
  [.nop, .canon, .buildByte, .buildWord, .buildComb, .crcBit false, .crcBit true, .crcByte false, .crcByte true,
   .crcWord false, .crcWord true, .crcRem, .reverse, .mulmod, .x8n, .zeros, .combine, .tblrd]

theorem mem_allCommands (i : Instr) : i ∈ allCommands := by
  cases i with
  | crcBit e | crcByte e | crcWord e => cases e <;> decide
  | _ => decide

/-- There are as many legal words of a kind as commands of that kind. -/
theorem ncard_legalWords (p : Instr → Prop) [DecidablePred p] :
    {w : Word | ∃ i, decode w = .ok i ∧ p i}.ncard = (allCommands.filter p).length := by
  have himage : {w : Word | ∃ i, decode w = .ok i ∧ p i} = encode '' ↑(allCommands.filter p).toFinset := by
    ext w
    simp [decode_eq_ok_iff, mem_allCommands, and_comm, eq_comm (b := w)]
  have hnodup : allCommands.Nodup := by decide
  rw [himage, Set.ncard_image_of_injective _ encode_injective, Set.ncard_coe_finset,
    List.toFinset_card_of_nodup (hnodup.filter _)]

/-! ## The illegal words -/

/-- The three ways of R105, on the fields. -/
theorem wf_eq_false_iff {f : CommandFields} :
    f.wf = false ↔ f.rsvd ≠ 0 ∨ f.op ∉ assignedOpcodes ∨ (f.e = true ∧ f.op ∉ noDataOpcodes) := by
  simp [CommandFields.wf, CommandFields.rsvdIsZero, CommandFields.opIsAssigned, CommandFields.eIsAllowed,
    imp_iff_not_or, or_assoc]

/-- A list of opcodes, as numbers, holds the low byte of a word exactly when it holds the word's OP. -/
theorem op_mem_iff {w : Word} {ops : List (BitVec 8)} :
    (commandFields w).op ∈ ops ↔ w.toNat % 256 ∈ ops.map BitVec.toNat := by
  rw [← commandFields_op_toNat, List.mem_map_of_injective BitVec.toNat_injective]

/-- A word is illegal exactly in the three ways of R105. -/
theorem decode_eq_error_iff (w : Word) :
    (∃ e, decode w = .error e) ↔
      w.toNat >>> 9 ≠ 0 ∨ w.toNat % 256 ∉ assignedOpcodes.map BitVec.toNat ∨
        (w.toNat.testBit 8 = true ∧ w.toNat % 256 ∉ noDataOpcodes.map BitVec.toNat) := by
  have hrsvd : (commandFields w).rsvd = 0 ↔ w.toNat >>> 9 = 0 := by
    rw [← commandFields_rsvd_toNat, ← BitVec.toNat_inj]
    rfl
  rw [decode, decodeFields_eq_error_iff, wf_eq_false_iff, Ne, hrsvd, op_mem_iff, op_mem_iff]
  rfl

/-- An idle block accepts the word written to CMD, whatever it is (R80, R26). -/
theorem writeReg_cmd_of_idle {s : State} (w : Word) (h : s.busy = false) : writeReg s .cmd w = s.accept w := by
  simp [writeReg, writeCommand, h]

/-- The engine's turn after an illegal word was accepted completes it with ILLEGAL (R105, R255). -/
theorem engineTurn_accept_of_error {s : State} {w : Word} {e : DecodeError} (h : decode w = .error e) :
    engineTurn (s.accept w) = .next ((s.accept w).complete .illegal) := by
  simp [engineTurn, runWord, h, raiseError]

/-- Settles O3: the three ways of R105 on the fields, the acceptance in an idle block, and the words of each kind
counted by their commands. -/
theorem illegalWordsCompleteWithIllegal : Obligations.IllegalWordsCompleteWithIllegal := by
  refine ⟨decode_eq_error_iff, fun s w e hidle he => ?_, ?_, ncard_legalWords (·.noData = false),
    ncard_legalWords (·.noData = true)⟩
  · rw [writeReg_cmd_of_idle w hidle]
    exact ⟨rfl, rfl, rfl, engineTurn_accept_of_error he⟩
  · simpa [allCommands] using ncard_legalWords fun _ => True

end Sys2Proof.Machine
end

section
/-! # The E = 1 forms (O39)

A check that passes leaves the rest of the command; with E = 1 the rest is M_INIT (R101, R166, R186, R197). -/

namespace Sys2Proof.Machine

section
variable {s : State} (k : StepResult)

theorem needModel_of_mvalid (h : s.status.mvalid = true) : needModel s k = k := if_pos h

theorem needWidth_of_le {limit : Nat} (h : s.model.w ≤ limit) : needWidth s limit k = k := if_pos h

theorem needTable_of_valid {flag : Bool} (h : flag = true) : needTable s flag k = k := if_pos h

end

/-- Settles O39: the checks pass, and the E = 1 branch reads neither an operand nor memory. -/
theorem noDataFormsReturnInit : Obligations.NoDataFormsReturnInit := by
  intro s hm
  refine ⟨?_, fun hw hb => ?_, fun hw hv => ?_⟩
  · exact needModel_of_mvalid _ hm
  · rw [exec, execCrcByte, needModel_of_mvalid _ hm, needWidth_of_le _ hw, needTable_of_valid _ hb]
    rfl
  · rw [exec, execCrcWord, needModel_of_mvalid _ hm, needWidth_of_le _ hw, needTable_of_valid _ hv]
    rfl

end Sys2Proof.Machine
end

section
/-! # NOP, CANON and the builds (O24, O31, O32)

The frame of each is read off `ExecOutcome`, which holds no outcome of a value command for them; what CANON's check
decides is `usableModel_iff`, and the rest of O32 is the state it completes with (R130 to R134, R182, R194, R221). -/

namespace Sys2Proof.Machine

/-! ## Frames -/

section
variable {s t : State}

/-- CANON changes the model, MVALID, the table flags and the tables' contents (R134). -/
theorem ExecOutcome.canon_frame (h : ExecOutcome s .canon t) :
    t = State.complete
      { s with
        model := t.model, byteTable := t.byteTable, wordTable := t.wordTable, combTable := t.combTable
        status :=
          { s.status with
            mvalid := t.status.mvalid, bvalid := t.status.bvalid, wvalid := t.status.wvalid
            cvalid := t.status.cvalid } }
      t.status.err := by
  cases h with
  | error | canon => rfl
  | bus _ hval | value hval => exact absurd (by decide) hval

/-- BUILD_BYTE changes table_byte and BVALID (R182). -/
theorem ExecOutcome.buildByte_frame (h : ExecOutcome s .buildByte t) :
    t = State.complete
      { s with byteTable := t.byteTable, status := { s.status with bvalid := t.status.bvalid } } t.status.err := by
  cases h with
  | error | buildByte => rfl
  | bus _ hval | value hval => exact absurd (by decide) hval

/-- BUILD_WORD changes table_word, WTBL_INFO and WVALID (R194). -/
theorem ExecOutcome.buildWord_frame (h : ExecOutcome s .buildWord t) :
    t = State.complete
      { s with
        wordTable := t.wordTable, wtblLittle := t.wtblLittle, wtblW8 := t.wtblW8
        status := { s.status with wvalid := t.status.wvalid } }
      t.status.err := by
  cases h with
  | error | buildWord => rfl
  | bus _ hval | value hval => exact absurd (by decide) hval

/-- BUILD_COMB changes table_comb, COMB_INFO and CVALID (R221). -/
theorem ExecOutcome.buildComb_frame (h : ExecOutcome s .buildComb t) :
    t = State.complete
      { s with
        combTable := t.combTable, combCycle := t.combCycle, combBack := t.combBack
        status := { s.status with cvalid := t.status.cvalid } }
      t.status.err := by
  cases h with
  | error | buildComb => rfl
  | bus _ hval | value hval => exact absurd (by decide) hval

end

/-! ## CANON -/

/-- CANON of a usable model completes with the model held (R134). -/
theorem exec_canon_of_usable {s : State} (h : usableModel s.commandRegs = true) :
    exec .canon s = .next ((s.holdModel (canonicalModel s.commandRegs)).complete .ok) := if_pos h

/-- CANON of any other CFG values completes with MODEL (R132). -/
theorem exec_canon_of_not_usable {s : State} (h : ¬ usableModel s.commandRegs = true) :
    exec .canon s = .next (s.complete .model) := if_neg h

/-- The CFG values that O32 calls usable are those CANON accepts (R132). -/
theorem usableModel_iff_odd {r : HostRegs} :
    usableModel r = true ↔
      1 ≤ r.cfgWidth.toNat ∧ r.cfgWidth.toNat ≤ 128 ∧ r.cfgPoly.toNat % 2 = 1 ∧
        r.cfgPoly.toNat < 2 ^ r.cfgWidth.toNat ∧ r.cfgInit.toNat < 2 ^ r.cfgWidth.toNat ∧
        r.cfgXorout.toNat < 2 ^ r.cfgWidth.toNat := by
  rw [usableModel_iff, Nat.testBit_zero, decide_eq_true_iff]

/-- M_POLY of a usable model: the reversal stays inside the register (R133). -/
theorem canonicalModel_poly_toNat {r : HostRegs} (h : usableModel r = true) :
    (canonicalModel r).poly.toNat = reverseIf r.refin r.cfgPoly.toNat r.cfgWidth.toNat := by
  obtain ⟨-, hmax, -, hpoly, -, -⟩ := usableModel_iff.1 h
  exact toNat_ofNat_wide hmax (reverseIf_lt hpoly)

/-- M_INIT of a usable model: the reversal and the folded xorout stay inside the register (R133). -/
theorem canonicalModel_init_toNat {r : HostRegs} (h : usableModel r = true) :
    (canonicalModel r).init.toNat =
      reverseIf r.refout r.cfgInit.toNat r.cfgWidth.toNat ^^^ r.cfgXorout.toNat := by
  obtain ⟨-, hmax, -, -, hinit, hxorout⟩ := usableModel_iff.1 h
  exact toNat_ofNat_wide hmax (Nat.xor_lt_two_pow (reverseIf_lt hinit) hxorout)

/-! ## The obligations -/

/-- Settles O31: NOP is `finish` of the state it finds. -/
theorem nopCompletes : Obligations.NopCompletes := fun _ => finish_next.2 rfl

/-- Settles O24: the frames of the commands, and no outcome of a command writes memory. -/
theorem controlAndBuildFrame : Obligations.ControlAndBuildFrame := by
  intro s t
  refine ⟨finish_next.1, fun h => (exec_outcome h).canon_frame, fun h => (exec_outcome h).buildByte_frame,
    fun h => (exec_outcome h).buildWord_frame, fun h => (exec_outcome h).buildComb_frame, fun _ _ h a => ?_⟩
  obtain ⟨-, -, hmem⟩ := (exec_outcome h).surroundings
  rw [hmem]

/-- Settles O32: CANON's check is O32's condition, and the fields are those of `canonicalModel` held and completed. -/
theorem canonHoldsTheCanonicalModel : Obligations.CanonHoldsTheCanonicalModel := by
  rintro s r w rfl rfl
  rw [← usableModel_iff_odd]
  refine ⟨fun h => ⟨_, exec_canon_of_usable h, rfl, rfl, rfl, canonicalModel_poly_toNat h,
    canonicalModel_init_toNat h, rfl, canonicalModel_canonical h, rfl, rfl, rfl, rfl, rfl, rfl, rfl⟩,
    exec_canon_of_not_usable⟩

end Sys2Proof.Machine
end

section
/-! # Bit reversal (O41, O47)

R150's reversal is known bit by bit; its sum, its indifference to high bits and its involution, and what REVERSE
answers (R152), follow. -/

namespace Sys2Proof.Machine

/-! ## The reverse function -/

/-- Every bit of the reversal, those from n on included (R150). -/
theorem testBit_bitReverse_eq (x n i : Nat) :
    (bitReverse x n).testBit i = (decide (i < n) && x.testBit (n - 1 - i)) := by
  by_cases hi : i < n
  · simp [hi, testBit_bitReverse x n i hi]
  · have hlt : bitReverse x n < 2 ^ i :=
      (bitReverse_lt x n).trans_le (Nat.pow_le_pow_right (by decide) (by omega))
    simp [hi, Nat.testBit_lt_two_pow hlt]

/-- One more bit doubles every weight of the sum and adds bit n with weight 1. -/
theorem bitReverse_eq_sum (x n : Nat) :
    bitReverse x n = ∑ i ∈ Finset.range n, (x.testBit i).toNat * 2 ^ (n - 1 - i) := by
  induction n with
  | zero => rfl
  | succ n ih =>
    have hdouble : 2 * ∑ i ∈ Finset.range n, (x.testBit i).toNat * 2 ^ (n - 1 - i) =
        ∑ i ∈ Finset.range n, (x.testBit i).toNat * 2 ^ (n - i) := by
      rw [Finset.mul_sum]
      refine Finset.sum_congr rfl fun i hi => ?_
      have hexp : n - i = n - 1 - i + 1 := by have := Finset.mem_range.1 hi; omega
      rw [hexp, Nat.pow_succ]
      ring
    rw [bitReverse, ih, hdouble, Finset.sum_range_succ]
    simp [bit]

/-- Only the low n bits are reversed. -/
theorem bitReverse_mod (x n : Nat) : bitReverse (x % 2 ^ n) n = bitReverse x n := by
  refine Nat.eq_of_testBit_eq fun i => ?_
  simp only [testBit_bitReverse_eq, Nat.testBit_mod_two_pow]
  by_cases hi : i < n
  · simp [show n - 1 - i < n by omega]
  · simp [hi]

theorem bitReverse_bitReverse (x n : Nat) : bitReverse (bitReverse x n) n = x &&& ones n := by
  rw [ones, Nat.and_two_pow_sub_one_eq_mod]
  refine Nat.eq_of_testBit_eq fun i => ?_
  simp only [testBit_bitReverse_eq, Nat.testBit_mod_two_pow]
  by_cases hi : i < n
  · simp [show n - 1 - i < n by omega, show n - 1 - (n - 1 - i) = i by omega]
  · simp [hi]

/-! ## The command -/

/-- REVERSE of at most 128 bits completes with the reversal. -/
theorem exec_reverse_of_le {s : State} (h : opAux s ≤ 128) :
    exec .reverse s = finishValue s (bitReverse (opA s) (opAux s)) := if_pos (decide_eq_true h)

/-- REVERSE of more bits completes with ARG. -/
theorem exec_reverse_of_gt {s : State} (h : 128 < opAux s) : exec .reverse s = .next (s.complete .arg) :=
  needArg_next.2 (.inr ⟨decide_eq_false (by omega), rfl⟩)

/-- A reversal of at most 128 bits fits RESULT, so that RESULT has exactly its bits (R152). -/
theorem getLsbD_ofNat_bitReverse (x : Nat) {n : Nat} (hn : n ≤ 128) (i : Nat) :
    (BitVec.ofNat 128 (bitReverse x n)).getLsbD i = (decide (i < n) && x.testBit (n - 1 - i)) := by
  have hfits : (BitVec.ofNat 128 (bitReverse x n)).toNat = bitReverse x n :=
    toNat_ofNat_wide hn (bitReverse_lt x n)
  rw [BitVec.getLsbD, hfits, testBit_bitReverse_eq]

/-! ## The obligations -/

/-- Settles O47: each part is a property of the reversal proved above. -/
theorem reverseReordersBits : Obligations.ReverseReordersBits := by
  intro x n
  refine ⟨bitReverse_eq_sum x n, testBit_bitReverse_eq x n, fun y h => ?_, bitReverse_bitReverse x n, rfl⟩
  calc bitReverse y n = bitReverse (y % 2 ^ n) n := (bitReverse_mod y n).symm
    _ = bitReverse (x % 2 ^ n) n := by rw [h]
    _ = bitReverse x n := bitReverse_mod x n

/-- Settles O41: the value REVERSE completes with fits RESULT. -/
theorem reverseCommandReversesOpa : Obligations.ReverseCommandReversesOpa := fun _ =>
  ⟨fun h => ⟨_, exec_reverse_of_le h, rfl, getLsbD_ofNat_bitReverse _ h⟩, exec_reverse_of_gt⟩

end Sys2Proof.Machine
end

section
/-! # The register and the pipeline (O48, O49, O51)

A register that starts inside the width stays there (`feedAll_lt`), and `post` and `pre` are inverse there
(`post_pre`, `pre_post`), which lets the CRC of one chunk start the next (R160 to R166). -/

namespace Sys2Proof.Machine

/-! ## Masks and reversals below 2^w -/

theorem and_ones_of_lt {x w : Nat} (h : x < 2 ^ w) : x &&& ones w = x := by
  rw [ones, Nat.and_two_pow_sub_one_eq_mod, Nat.mod_eq_of_lt h]

@[simp] theorem reverseIf_false (x w : Nat) : reverseIf false x w = x := rfl

/-- Two reversals of a value below 2^w cancel (R150). -/
theorem reverseIf_reverseIf {x w : Nat} (h : x < 2 ^ w) (f g : Bool) :
    reverseIf f (reverseIf g x w) w = reverseIf (f ^^ g) x w := by
  cases f <;> cases g
  case true.true => exact (bitReverse_bitReverse x w).trans (and_ones_of_lt h)
  all_goals rfl

/-! ## pre and post -/

theorem pre_eq (m : Model) (c : Nat) : pre m c = reverseIf m.rev ((c &&& ones m.w) ^^^ m.xorout.toNat) m.w := rfl

theorem post_eq (m : Model) (r : Nat) : post m r = reverseIf m.rev r m.w ^^^ m.xorout.toNat := by
  cases h : m.rev <;> simp [post, reverseIf, h]

section
variable {m : Model} (hm : m.Canonical)
include hm

theorem and_ones_xor_xorout_lt (c : Nat) : (c &&& ones m.w) ^^^ m.xorout.toNat < 2 ^ m.w :=
  Nat.xor_lt_two_pow (and_ones_lt c m.w) hm.xoroutFits

/-- The register of any pipeline value is inside the width (R163). -/
theorem pre_lt (c : Nat) : pre m c < 2 ^ m.w := reverseIf_lt (and_ones_xor_xorout_lt hm c)

/-- The pipeline value of a register inside the width is inside the width (R164). -/
theorem post_lt {r : Nat} (hr : r < 2 ^ m.w) : post m r < 2 ^ m.w := by
  rw [post_eq]
  exact Nat.xor_lt_two_pow (reverseIf_lt hr) hm.xoroutFits

/-- `post` undoes `pre` up to the mask (R164). -/
theorem post_pre (c : Nat) : post m (pre m c) = c &&& ones m.w := by
  rw [post_eq, pre_eq, reverseIf_reverseIf (and_ones_xor_xorout_lt hm c), Bool.xor_self, reverseIf_false,
    Nat.xor_xor_cancel_right]

/-- `pre` undoes `post` on the registers inside the width. -/
theorem pre_post {r : Nat} (hr : r < 2 ^ m.w) : pre m (post m r) = r := by
  rw [pre_eq, and_ones_of_lt (post_lt hm hr), post_eq, Nat.xor_xor_cancel_right, reverseIf_reverseIf hr,
    Bool.xor_self, reverseIf_false]

/-! ## Bits and bytes fed -/

theorem feedBits_lt (b n : Nat) {r : Nat} (hr : r < 2 ^ m.w) : feedBits m b n r < 2 ^ m.w := by
  induction n with
  | zero => exact hr
  | succ n ih => exact stepBit_lt hm ih _

/-- A byte feed keeps the register inside the width (R162). -/
theorem feed_lt {r : Nat} (hr : r < 2 ^ m.w) (b : Nat) : feed m r b < 2 ^ m.w := feedBits_lt hm b 8 hr

theorem feedAll_lt {r : Nat} (hr : r < 2 ^ m.w) (bs : List Byte) : feedAll m r bs < 2 ^ m.w := by
  induction bs generalizing r with
  | nil => exact hr
  | cons b bs ih => exact ih (feed_lt hm hr b.toNat)

end

theorem feedAll_append (m : Model) (r : Nat) (b₁ b₂ : List Byte) :
    feedAll m r (b₁ ++ b₂) = feedAll m (feedAll m r b₁) b₂ := List.foldl_append

/-- The CRC of the empty message is the masked operand (R166). -/
theorem crcFrom_nil {m : Model} (hm : m.Canonical) (c : Nat) : crcFrom m c [] = c &&& ones m.w := post_pre hm c

/-- The CRC of one chunk holds the register that the next chunk starts from (R166). -/
theorem crcFrom_append {m : Model} (hm : m.Canonical) (c : Nat) (b₁ b₂ : List Byte) :
    crcFrom m (crcFrom m c b₁) b₂ = crcFrom m c (b₁ ++ b₂) := by
  rw [crcFrom, crcFrom, crcFrom, pre_post hm (feedAll_lt hm (pre_lt hm c) b₁), feedAll_append]

/-! ## M_INIT -/

/-- `pre` of the M_INIT that CANON makes is the Williams init in the register's bit order: the folded xorout cancels,
and of the reversals only the one by refin is left (R164, R133). -/
theorem pre_canonicalModel_init {r : HostRegs} (h : usableModel r = true) :
    pre (canonicalModel r) (canonicalModel r).init.toNat = reverseIf r.refin r.cfgInit.toNat r.cfgWidth.toNat := by
  obtain ⟨-, -, -, -, hinit, -⟩ := usableModel_iff.1 h
  have hrev : ((r.refin ^^ r.refout) ^^ r.refout) = r.refin := by cases r.refin <;> cases r.refout <;> rfl
  calc pre (canonicalModel r) (canonicalModel r).init.toNat
      = reverseIf (r.refin ^^ r.refout)
          ((canonicalModel r).init.toNat ^^^ r.cfgXorout.toNat) r.cfgWidth.toNat := by
        rw [pre_eq, and_ones_of_lt (canonicalModel_canonical h).initFits]
        rfl
    _ = reverseIf r.refin r.cfgInit.toNat r.cfgWidth.toNat := by
        rw [canonicalModel_init_toNat h, Nat.xor_xor_cancel_right, reverseIf_reverseIf hinit, hrev]

/-! ## The obligations -/

/-- Settles O48: the bounds of the step, the byte feed, pre and post. -/
theorem registersStayInsideTheWidth : Obligations.RegistersStayInsideTheWidth := fun _ hm _ hr =>
  ⟨stepBit_lt hm hr, feed_lt hm hr, pre_lt hm, post_lt hm hr⟩

/-- Settles O49: the reversals cancel because every value they meet is below 2^w. -/
theorem postUndoesPre : Obligations.PostUndoesPre :=
  ⟨post_eq, fun _ hm => post_pre hm, fun _ h => ⟨canonicalModel_init_toNat h, pre_canonicalModel_init h⟩⟩

/-- Settles O51: `pre` recovers the register that the first chunk left. -/
theorem chunksOfAMessageChain : Obligations.ChunksOfAMessageChain := fun _ hm c b₁ b₂ =>
  ⟨crcFrom_append hm c b₁ b₂, crcFrom_nil hm c, post_lt hm (feedAll_lt hm (pre_lt hm c) b₁)⟩

end Sys2Proof.Machine
end

section
/-! # CRC_BIT and CRC_REM (O36, O40)

With every read answered a buffer command completes with its value (`exec_of_answers`); CRC_REM feeds the first AUX
bits of one byte, and only the low eight bits of OPB can be among them (R166, R168). -/

namespace Sys2Proof.Machine

/-! ## Buffer commands whose reads are answered -/

theorem makeReads_of_answers {s : State} {l : List (Nat × Nat)} (h : ∀ r ∈ l, s.answers r) :
    makeReads s l = .value () := by
  induction l with
  | nil => rfl
  | cons r l ih =>
    obtain ⟨⟨hadmits, hdevice⟩, hrest⟩ := List.forall_mem_cons.1 h
    rw [makeReads, memRead_of_answers hadmits hdevice, Run.bind_value, ih hrest]

/-- A buffer command whose checks pass and whose reads are answered completes with its value (R75, R166). -/
theorem exec_of_answers {s : State} {i : Instr} (hchecks : bufferChecksPass s i)
    (hreads : ∀ r ∈ readsOf s i, s.answers r) : exec i s = finishValue s (bufferValue s i) := by
  rw [exec_of_bufferChecksPass hchecks, bufferRun, makeReads_of_answers hreads]
  rfl

/-! ## The bits of a byte, one by one -/

theorem feedBits_eq_foldl (m : Model) (b n r : Nat) :
    feedBits m b n r = (List.range n).foldl (fun r i => stepBit m r (fedBit m b i)) r := by
  induction n with
  | zero => rfl
  | succ n ih => rw [feedBits, ih, List.range_succ, List.foldl_append]; rfl

/-- The first eight bits fed are bits 7:0 of the value (R162). -/
theorem fedBit_mod (m : Model) (b : Nat) {i : Nat} (hi : i < 8) : fedBit m (b % 2 ^ 8) i = fedBit m b i := by
  simp only [fedBit, bit, Nat.testBit_mod_two_pow, hi, show 7 - i < 8 by omega, decide_true, Bool.true_and]

theorem feedBits_mod (m : Model) (b : Nat) {n : Nat} (hn : n ≤ 8) (r : Nat) :
    feedBits m (b % 2 ^ 8) n r = feedBits m b n r := by
  induction n with
  | zero => rfl
  | succ n ih => rw [feedBits, feedBits, ih (by omega), fedBit_mod m b (by omega)]

/-- A step over a bit of `b`, by the direction of the model (R160 to R162). -/
theorem stepBit_fedBit (m : Model) (r b i : Nat) :
    stepBit m r (fedBit m b i) =
      if m.ref then stepRef m r (b.testBit i) else stepNorm m r (b.testBit (7 - i)) := by
  cases h : m.ref <;> simp [stepBit, fedBit, h, bit]

/-! ## CRC_REM -/

theorem remValue_eq (s : State) : remValue s = opB s % 2 ^ 8 := rfl

/-- CRC_REM of at most eight bits feeds them from OPA (R168). -/
theorem exec_crcRem_of_le {s : State} (hm : s.status.mvalid = true) (h : opAux s ≤ 8) :
    exec .crcRem s = finishValue s (post s.model (feedBits s.model (remValue s) (opAux s) (pre s.model (opA s)))) :=
  (needModel_of_mvalid _ hm).trans (if_pos (decide_eq_true h))

/-- CRC_REM of more bits completes with ARG (R168). -/
theorem exec_crcRem_of_gt {s : State} (hm : s.status.mvalid = true) (h : 8 < opAux s) :
    exec .crcRem s = .next (s.complete .arg) :=
  (needModel_of_mvalid _ hm).trans (needArg_next.2 (.inr ⟨decide_eq_false (by omega), rfl⟩))

/-! ## The obligations -/

/-- Settles O36: the value of CRC_BIT is the CRC of the bytes read. -/
theorem crcBitComputesTheCrc : Obligations.CrcBitComputesTheCrc := fun _ => exec_of_answers

/-- Settles O40: the clauses are CRC_REM's value for every AUX ≤ 8, at AUX = 8 and at AUX = 0, and its ARG error. -/
theorem crcRemAppliesBits : Obligations.CrcRemAppliesBits := by
  intro s hm
  refine ⟨fun h => ?_, fun h => ?_, fun hcanon h => ?_, exec_crcRem_of_gt hm⟩
  · rw [exec_crcRem_of_le hm h, remValue_eq, feedBits_mod _ _ h, feedBits_eq_foldl]
    simp only [stepBit_fedBit]
  · rw [exec_crcRem_of_le hm h.le, h]
    rfl
  · rw [exec_crcRem_of_le hm (by omega), h, feedBits, post_pre hcanon]

end Sys2Proof.Machine
end

section
/-! # The byte feed in three branches (O50)

R165's branches enter the whole byte at once and then step with no input. Beside the eight fed steps, the branch's
register after n of its steps is the fed register with the bits of the byte that are still to come XORed in: shifted
down in the reflected branch, up in the normal ones. -/

namespace Sys2Proof.Machine

theorem applyTimes_eq_iterate (f : Nat → Nat) (n x : Nat) : applyTimes f n x = f^[n] x := by
  induction n generalizing x with
  | zero => rfl
  | succ n ih => exact ih (f x)

theorem applyTimes_succ (f : Nat → Nat) (n x : Nat) : applyTimes f (n + 1) x = f (applyTimes f n x) := by
  simp only [applyTimes_eq_iterate, Function.iterate_succ_apply']

/-- A relation between the fed register and another one, kept by each of the eight steps, holds after a byte. -/
theorem feed_related {m : Model} {b r c : Nat} {f : Nat → Nat} (P : Nat → Nat → Nat → Prop) (hstart : P 0 r c)
    (hstep : ∀ n < 8, ∀ r c, P n r c → P (n + 1) (stepBit m r (fedBit m b n)) (f c)) :
    P 8 (feed m r b) (applyTimes f 8 c) := by
  have hall : ∀ n ≤ 8, P n (feedBits m b n r) (applyTimes f n c) := by
    intro n hn
    induction n with
    | zero => exact hstart
    | succ n ih =>
      rw [applyTimes_succ]
      exact hstep n hn _ _ (ih (by omega))
  exact hall 8 le_rfl

/-! ## The reflected branch -/

/-- One step of the reflected branch (R165). -/
def branchStepRef (m : Model) (c : Nat) : Nat := if bit c 0 then (c >>> 1) ^^^ m.poly.toNat else c >>> 1

/-- The step without input, on a register with the rest of the byte XORed in, is the step over the byte's bit n. -/
theorem branchStepRef_xor (m : Model) (r b n : Nat) :
    branchStepRef m (r ^^^ (b >>> n)) = stepRef m r (bit b n) ^^^ (b >>> (n + 1)) := by
  have hbit : bit (r ^^^ (b >>> n)) 0 = (bit r 0 ^^ bit b n) := by
    rw [bit, Nat.testBit_xor, Nat.testBit_shiftRight]; rfl
  have hshift : (r ^^^ (b >>> n)) >>> 1 = (r >>> 1) ^^^ (b >>> (n + 1)) := by
    rw [Nat.shiftRight_xor_distrib, Nat.shiftRight_add]
  rw [branchStepRef, stepRef, hbit, hshift]
  split
  · exact Nat.xor_right_comm ..
  · rfl

/-- The reflected branch is the byte feed: after eight steps none of the byte's bits are left. -/
theorem feed_eq_branch_ref {m : Model} (href : m.ref = true) (r : Nat) {b : Nat} (hb : b < 256) :
    applyTimes (branchStepRef m) 8 (r ^^^ b) = feed m r b := by
  have h := feed_related (m := m) (b := b) (f := branchStepRef m) (fun n r c => c = r ^^^ (b >>> n))
    (r := r) (c := r ^^^ b) (by simp) fun n _ r c hc => by
      rw [hc, branchStepRef_xor, stepBit, if_pos href, fedBit, if_pos href]
  rw [h, Nat.shiftRight_eq_div_pow, Nat.div_eq_of_lt hb, Nat.xor_zero]

/-! ## The normal branches

Both work at the top of a register of max(w, 8) = w + (8 − w) bits, in which a register narrower than a byte stands
8 − w bits higher. What stands above that width never comes back into it, so it does not matter whether a branch masks
each step, as the one for w ≤ 8 does, or the last one only. -/

/-- The width of the normal branches' register, w but at least 8. -/
def branchWidth (m : Model) : Nat := m.w + (8 - m.w)

theorem branchWidth_pos (m : Model) : 0 < branchWidth m := by unfold branchWidth; omega

/-- One step of the normal branches (R165), before any mask. -/
def branchStepNorm (m : Model) (c : Nat) : Nat :=
  if bit c (branchWidth m - 1) then (c <<< 1) ^^^ (m.poly.toNat <<< (8 - m.w)) else c <<< 1

/-- The branch's register beside the fed register `r` with n bits of `b` fed: `r` at the top, and the bits of the byte
that are still to come. -/
def branchRegister (m : Model) (b n r : Nat) : Nat := (r <<< (8 - m.w)) ^^^ (b <<< (m.w - 8 + n))

/-- Bits that a step takes from above the register do not come down into it. -/
theorem branchStepNorm_modEq {m : Model} {c d : Nat} (h : c ≡ d [MOD 2 ^ branchWidth m]) :
    branchStepNorm m c ≡ branchStepNorm m d [MOD 2 ^ branchWidth m] := by
  have hpos := branchWidth_pos m
  have htop (x : Nat) : bit x (branchWidth m - 1) = bit (x % 2 ^ branchWidth m) (branchWidth m - 1) := by
    simp only [bit, Nat.testBit_mod_two_pow, show branchWidth m - 1 < branchWidth m by omega, decide_true,
      Bool.true_and]
  have hshift : c <<< 1 ≡ d <<< 1 [MOD 2 ^ branchWidth m] := by
    simpa only [Nat.shiftLeft_eq] using h.mul_right (2 ^ 1)
  rw [branchStepNorm, branchStepNorm, htop c, htop d, h]
  split
  · rw [Nat.ModEq, Nat.xor_mod_two_pow, hshift, ← Nat.xor_mod_two_pow]
  · exact hshift

/-- The mask of a fed register is the width of the branch's register. -/
theorem and_ones_shiftLeft (m : Model) (x : Nat) :
    (x &&& ones m.w) <<< (8 - m.w) = (x <<< (8 - m.w)) % 2 ^ branchWidth m := by
  rw [ones, Nat.and_two_pow_sub_one_eq_mod, Nat.shiftLeft_eq, Nat.shiftLeft_eq, branchWidth, Nat.pow_add,
    Nat.mul_mod_mul_right]

/-- The bit tested is the register's top bit XOR the byte's next bit, bit 7 first. -/
theorem bit_branchRegister {m : Model} (hw : 1 ≤ m.w) (b : Nat) {n : Nat} (hn : n < 8) (r : Nat) :
    bit (branchRegister m b n r) (branchWidth m - 1) = (bit r (m.w - 1) ^^ bit b (7 - n)) := by
  have hwidth : branchWidth m = m.w + (8 - m.w) := rfl
  simp only [bit, branchRegister, Nat.testBit_xor, Nat.testBit_shiftLeft,
    show branchWidth m - 1 ≥ 8 - m.w by omega, show branchWidth m - 1 ≥ m.w - 8 + n by omega,
    show branchWidth m - 1 - (8 - m.w) = m.w - 1 by omega,
    show branchWidth m - 1 - (m.w - 8 + n) = 7 - n by omega, decide_true, Bool.true_and]

/-- The step without input on the branch's register is the step over the byte's next bit. -/
theorem branchStepNorm_branchRegister {m : Model} (hw : 1 ≤ m.w) (b : Nat) {n : Nat} (hn : n < 8) (r : Nat) :
    branchStepNorm m (branchRegister m b n r) ≡ branchRegister m b (n + 1) (stepNorm m r (bit b (7 - n)))
      [MOD 2 ^ branchWidth m] := by
  have hshift : branchRegister m b n r <<< 1 ≡ branchRegister m b (n + 1) ((r <<< 1) &&& ones m.w)
      [MOD 2 ^ branchWidth m] := by
    rw [branchRegister, branchRegister, and_ones_shiftLeft, Nat.shiftLeft_xor_distrib, ← Nat.shiftLeft_add,
      ← Nat.shiftLeft_add, ← Nat.shiftLeft_add, Nat.add_assoc, Nat.add_comm (8 - m.w), Nat.ModEq,
      Nat.xor_mod_two_pow, Nat.xor_mod_two_pow, Nat.mod_mod]
  have hpoly (x : Nat) : branchRegister m b (n + 1) (x ^^^ m.poly.toNat) =
      branchRegister m b (n + 1) x ^^^ (m.poly.toNat <<< (8 - m.w)) := by
    rw [branchRegister, branchRegister, Nat.shiftLeft_xor_distrib, Nat.xor_right_comm]
  rw [branchStepNorm, stepNorm, bit_branchRegister hw b hn]
  split
  · rw [hpoly, Nat.ModEq, Nat.xor_mod_two_pow, hshift, ← Nat.xor_mod_two_pow]
  · exact hshift

/-- After eight steps the byte has left the branch's register, and the fed register stands at the top. -/
theorem branchRegister_eight_mod {m : Model} {r : Nat} (hr : r < 2 ^ m.w) (b : Nat) :
    branchRegister m b 8 r % 2 ^ branchWidth m = r <<< (8 - m.w) := by
  have hbyte : (b <<< (m.w - 8 + 8)) % 2 ^ branchWidth m = 0 := by
    rw [show m.w - 8 + 8 = branchWidth m by unfold branchWidth; omega, Nat.shiftLeft_eq, Nat.mul_mod_left]
  rw [branchRegister, Nat.xor_mod_two_pow, hbyte, Nat.xor_zero, ← and_ones_shiftLeft, and_ones_of_lt hr]

/-- Either normal branch is the byte feed, whatever its steps `f` leave above the branch's register. -/
theorem feed_eq_branch_norm {m : Model} (hm : m.Canonical) (href : m.ref = false) {f : Nat → Nat}
    (hf : ∀ c, f c ≡ branchStepNorm m c [MOD 2 ^ branchWidth m]) {r : Nat} (hr : r < 2 ^ m.w) (b : Nat) :
    (applyTimes f 8 (branchRegister m b 0 r) >>> (8 - m.w)) &&& ones m.w = feed m r b := by
  have hrel : applyTimes f 8 (branchRegister m b 0 r) ≡ branchRegister m b 8 (feed m r b)
      [MOD 2 ^ branchWidth m] :=
    feed_related (fun n r c => c ≡ branchRegister m b n r [MOD 2 ^ branchWidth m]) rfl fun n hn r c hc => by
      have hstep := branchStepNorm_branchRegister hm.widthPos b hn r
      simpa [stepBit, fedBit, href] using (hf c).trans ((branchStepNorm_modEq hc).trans hstep)
  calc (applyTimes f 8 (branchRegister m b 0 r) >>> (8 - m.w)) &&& ones m.w
      = (applyTimes f 8 (branchRegister m b 0 r) % 2 ^ branchWidth m) >>> (8 - m.w) := by
        rw [ones, Nat.and_two_pow_sub_one_eq_mod, Nat.shiftRight_eq_div_pow, Nat.shiftRight_eq_div_pow, branchWidth,
          Nat.pow_add, Nat.mod_mul_left_div_self]
    _ = (feed m r b <<< (8 - m.w)) >>> (8 - m.w) := by rw [hrel, branchRegister_eight_mod (feed_lt hm hr b)]
    _ = feed m r b := Nat.shiftLeft_shiftRight ..

/-- One step of the normal branch for w ≤ 8, masked to a byte (R165). -/
def branchStepNarrow (m : Model) (c : Nat) : Nat :=
  if bit c 7 then ((c <<< 1) ^^^ (m.poly.toNat <<< (8 - m.w))) &&& 0xFF else (c <<< 1) &&& 0xFF

/-- One step of the normal branch for w > 8, not masked (R165). -/
def branchStepWide (m : Model) (c : Nat) : Nat :=
  if bit c (m.w - 1) then (c <<< 1) ^^^ m.poly.toNat else c <<< 1

theorem branchStepNarrow_eq {m : Model} (hw : m.w ≤ 8) (c : Nat) :
    branchStepNarrow m c = branchStepNorm m c % 2 ^ branchWidth m := by
  have hwidth : branchWidth m = 8 := by unfold branchWidth; omega
  have hmask (x : Nat) : x &&& 0xFF = x % 2 ^ 8 := Nat.and_two_pow_sub_one_eq_mod x 8
  rw [branchStepNarrow, branchStepNorm, hwidth, hmask, hmask]
  split <;> rfl

theorem branchStepWide_eq {m : Model} (hw : 8 < m.w) (c : Nat) : branchStepWide m c = branchStepNorm m c := by
  rw [branchStepWide, branchStepNorm, branchWidth, Nat.sub_eq_zero_of_le hw.le]
  rfl

theorem feed_eq_branch_narrow {m : Model} (hm : m.Canonical) (href : m.ref = false) (hw : m.w ≤ 8) {r : Nat}
    (hr : r < 2 ^ m.w) (b : Nat) :
    (applyTimes (branchStepNarrow m) 8 ((r <<< (8 - m.w)) ^^^ b) >>> (8 - m.w)) &&& ones m.w = feed m r b := by
  have hf (c : Nat) : branchStepNarrow m c ≡ branchStepNorm m c [MOD 2 ^ branchWidth m] := by
    rw [branchStepNarrow_eq hw]
    exact Nat.mod_modEq ..
  rw [← feed_eq_branch_norm hm href hf hr b, branchRegister, Nat.sub_eq_zero_of_le hw]
  rfl

theorem feed_eq_branch_wide {m : Model} (hm : m.Canonical) (href : m.ref = false) (hw : 8 < m.w) {r : Nat}
    (hr : r < 2 ^ m.w) (b : Nat) :
    applyTimes (branchStepWide m) 8 (r ^^^ (b <<< (m.w - 8))) &&& ones m.w = feed m r b := by
  rw [← feed_eq_branch_norm hm href (fun c => congrArg (· % _) (branchStepWide_eq hw c)) hr b, branchRegister,
    Nat.sub_eq_zero_of_le hw.le]
  rfl

/-! ## The obligation -/

/-- Settles O50: each branch keeps beside the fed register the bits of the byte that are still to come. -/
theorem byteFeedEqualsTheThreeBranches : Obligations.ByteFeedEqualsTheThreeBranches := by
  intro m hm r hr b hb
  unfold feedByBranches
  split
  next href =>
    rw [and_ones_of_lt hr]
    exact feed_eq_branch_ref href r hb
  next href =>
    split
    next hw => exact feed_eq_branch_narrow hm (Bool.eq_false_iff.2 href) hw hr b
    next hw => exact feed_eq_branch_wide hm (Bool.eq_false_iff.2 href) (Nat.lt_of_not_le hw) hr b

end Sys2Proof.Machine
end

section
/-! # The register is linear

Steps and byte feeds distribute over XOR, of registers and input together (R160 to R162). -/

namespace Sys2Proof.Machine

theorem fedBit_xor (m : Model) (b b' i : Nat) : fedBit m (b ^^^ b') i = (fedBit m b i ^^ fedBit m b' i) := by
  unfold fedBit
  split <;> exact Nat.testBit_xor ..

/-- XORing the polynomial in under a condition is linear in the condition. -/
theorem ite_xor (c c' : Bool) (x x' p : Nat) :
    (if (c ^^ c') = true then (x ^^^ x') ^^^ p else x ^^^ x') =
      (if c = true then x ^^^ p else x) ^^^ (if c' = true then x' ^^^ p else x') := by
  cases c <;> cases c'
  case false.false => rfl
  case false.true => exact Nat.xor_assoc ..
  case true.false => exact Nat.xor_right_comm ..
  case true.true => simp [Nat.xor_assoc, Nat.xor_left_comm p]

theorem bit_xor_xor (r r' i : Nat) (d d' : Bool) :
    (bit (r ^^^ r') i ^^ (d ^^ d')) = ((bit r i ^^ d) ^^ (bit r' i ^^ d')) := by
  rw [bit, Nat.testBit_xor]
  simp only [bit, Bool.xor_assoc, Bool.xor_left_comm]

/-- One step is linear in the register and the input bit together (R160, R161). -/
theorem stepBit_xor (m : Model) (r r' : Nat) (d d' : Bool) :
    stepBit m (r ^^^ r') (d ^^ d') = stepBit m r d ^^^ stepBit m r' d' := by
  unfold stepBit
  split
  · rw [stepRef, bit_xor_xor, Nat.shiftRight_xor_distrib]
    exact ite_xor ..
  · rw [stepNorm, bit_xor_xor, Nat.shiftLeft_xor_distrib, Nat.and_xor_distrib_right]
    exact ite_xor ..

theorem feedBits_xor (m : Model) (r r' b b' n : Nat) :
    feedBits m (b ^^^ b') n (r ^^^ r') = feedBits m b n r ^^^ feedBits m b' n r' := by
  induction n with
  | zero => rfl
  | succ n ih => rw [feedBits, ih, fedBit_xor, stepBit_xor]; rfl

/-- A byte feed is linear in the register and the byte together (R162). -/
theorem feed_xor (m : Model) (r r' b b' : Nat) : feed m (r ^^^ r') (b ^^^ b') = feed m r b ^^^ feed m r' b' :=
  feedBits_xor m r r' b b' 8

/-- The feed of a byte string is linear in the register and the string together. -/
theorem feedAll_zipWith_xor (m : Model) (r r' : Nat) {bs bs' : List Byte} (h : bs.length = bs'.length) :
    feedAll m (r ^^^ r') (List.zipWith (· ^^^ ·) bs bs') = feedAll m r bs ^^^ feedAll m r' bs' := by
  induction bs generalizing r r' bs' with
  | nil => rw [List.length_eq_zero_iff.1 h.symm]; rfl
  | cons b bs ih =>
    cases bs' with
    | nil => cases h
    | cons b' bs' =>
      simp only [feedAll, List.zipWith_cons_cons, List.foldl_cons, BitVec.toNat_xor, feed_xor]
      exact ih _ _ (Nat.succ.inj h)

/-! ## Feeding a register its own bits -/

/-- Fed its own low bits, a reflected register shifts and meets no polynomial (R160). -/
theorem feedBits_ref_of_agree {m : Model} (href : m.ref = true) {b r n : Nat} (h : ∀ i < n, bit r i = bit b i) :
    feedBits m b n r = r >>> n := by
  induction n with
  | zero => rfl
  | succ n ih =>
    have hbit : bit (r >>> n) 0 = bit b n := by rw [← h n (by omega), bit, Nat.testBit_shiftRight]; rfl
    rw [feedBits, ih fun i hi => h i (by omega), stepBit, if_pos href, fedBit, if_pos href, stepRef, hbit,
      Bool.xor_self, if_neg Bool.false_ne_true, ← Nat.shiftRight_add]

/-- Bits masked off before a shift up would be masked off after it. -/
theorem shiftLeft_and_ones (x n w : Nat) : ((x &&& ones w) <<< n) &&& ones w = (x <<< n) &&& ones w := by
  simp only [ones, Nat.and_two_pow_sub_one_eq_mod, Nat.shiftLeft_eq, Nat.mod_mul_mod]

/-- Fed its own high bits, a normal register shifts and meets no polynomial (R161). -/
theorem feedBits_norm_of_agree {m : Model} (href : m.ref = false) {b r n : Nat} (hr : r < 2 ^ m.w)
    (h : ∀ i < n, bit ((r <<< i) &&& ones m.w) (m.w - 1) = bit b (7 - i)) :
    feedBits m b n r = (r <<< n) &&& ones m.w := by
  induction n with
  | zero => exact (and_ones_of_lt hr).symm
  | succ n ih =>
    rw [feedBits, ih fun i hi => h i (by omega), stepBit, if_neg (by simp [href]), fedBit, if_neg (by simp [href]),
      stepNorm, h n (by omega), Bool.xor_self, if_neg Bool.false_ne_true, shiftLeft_and_ones, ←
      Nat.shiftLeft_add]

end Sys2Proof.Machine
end

section
/-! # The byte table (O33, O37, O52, O53)

A byte feed shifts the register by a byte and XORs in table_byte's entry at the byte that leaves, XORed with the byte
that comes in (`feed_eq_shift_xor`). That is the table step in the aligned form (R180 to R186). -/

namespace Sys2Proof.Machine

/-! ## A byte feed as a shift and a table entry -/

/-- The byte that leaves the register when eight bits are fed: its low bits when reflected, its high bits otherwise. -/
def outByte (m : Model) (r : Nat) : Nat := if m.ref then r % 256 else (r <<< 8) >>> m.w

/-- The register shifted by a byte, with no polynomial. -/
def shiftByte (m : Model) (r : Nat) : Nat := if m.ref then r >>> 8 else (r <<< 8) &&& ones m.w

theorem outByte_lt {m : Model} {r : Nat} (hr : r < 2 ^ m.w) : outByte m r < 256 := by
  unfold outByte
  split
  · exact Nat.mod_lt _ (by decide)
  · rw [Nat.shiftRight_eq_div_pow, Nat.shiftLeft_eq, Nat.div_lt_iff_lt_mul (Nat.two_pow_pos _), Nat.mul_comm 256]
    exact Nat.mul_lt_mul_of_pos_right hr (by decide)

theorem shiftByte_lt {m : Model} {r : Nat} (hr : r < 2 ^ m.w) : shiftByte m r < 2 ^ m.w := by
  unfold shiftByte
  split
  · exact (Nat.shiftRight_le r 8).trans_lt hr
  · exact and_ones_lt _ _

/-- All of a normal register of at most a byte leaves. -/
theorem shiftByte_of_narrow {m : Model} (href : m.ref = false) (hw : m.w ≤ 8) (r : Nat) : shiftByte m r = 0 := by
  rw [shiftByte, href, if_neg Bool.false_ne_true, ones, Nat.and_two_pow_sub_one_eq_mod, Nat.shiftLeft_eq]
  exact Nat.mod_eq_zero_of_dvd (Dvd.dvd.mul_left (Nat.pow_dvd_pow 2 hw) r)

theorem outByte_of_narrow {m : Model} (href : m.ref = false) (hw : m.w ≤ 8) (r : Nat) :
    outByte m r = r <<< (8 - m.w) := by
  have h : r <<< 8 = (r <<< (8 - m.w)) <<< m.w := by rw [← Nat.shiftLeft_add, Nat.sub_add_cancel hw]
  rw [outByte, href, if_neg Bool.false_ne_true, h, Nat.shiftLeft_shiftRight]

theorem outByte_of_wide {m : Model} (href : m.ref = false) (hw : 8 ≤ m.w) (r : Nat) :
    outByte m r = r >>> (m.w - 8) := by
  have h : (r <<< 8) >>> m.w = ((r <<< 8) >>> 8) >>> (m.w - 8) := by
    rw [← Nat.shiftRight_add, Nat.add_sub_cancel' hw]
  rw [outByte, href, if_neg Bool.false_ne_true, h, Nat.shiftLeft_shiftRight]

/-- Fed the byte that leaves, the register only shifts. -/
theorem feed_outByte {m : Model} (hm : m.Canonical) {r : Nat} (hr : r < 2 ^ m.w) :
    feed m r (outByte m r) = shiftByte m r := by
  unfold outByte shiftByte
  split
  next href =>
    refine feedBits_ref_of_agree href fun i hi => ?_
    rw [bit, bit, show 256 = 2 ^ 8 from rfl, Nat.testBit_mod_two_pow, decide_eq_true hi, Bool.true_and]
  next href =>
    refine feedBits_norm_of_agree (Bool.eq_false_iff.2 href) hr fun i hi => ?_
    have hw := hm.widthPos
    simp only [bit, ones, Nat.and_two_pow_sub_one_eq_mod, Nat.testBit_mod_two_pow, Nat.testBit_shiftRight,
      Nat.testBit_shiftLeft, show m.w - 1 < m.w by omega, decide_true, Bool.true_and,
      show m.w + (7 - i) - 8 = m.w - 1 - i by omega]
    congr 1
    exact decide_eq_decide.2 (by omega)

/-- A byte feed shifts the register and XORs in the feed, from the zero register, of the byte that leaves XOR the one
that comes in. -/
theorem feed_eq_shift_xor {m : Model} (hm : m.Canonical) {r : Nat} (hr : r < 2 ^ m.w) (b : Nat) :
    feed m r b = shiftByte m r ^^^ feed m 0 (outByte m r ^^^ b) := by
  rw [← feed_outByte hm hr, ← feed_xor, Nat.xor_zero, Nat.xor_xor_cancel_left]

/-! ## The aligned form -/

theorem alignReg_of_ref {m : Model} (href : m.ref = true) (r : Nat) : alignReg m r = r := by simp [alignReg, href]

theorem alignReg_of_norm {m : Model} (href : m.ref = false) (r : Nat) : alignReg m r = r <<< (8 - m.w) := by
  simp only [alignReg, href, Bool.not_false, Bool.true_and, decide_eq_true_eq]
  split
  · rfl
  · rw [Nat.sub_eq_zero_of_le (by omega), Nat.shiftLeft_zero]

theorem alignReg_of_wide {m : Model} (h : m.ref = true ∨ 8 ≤ m.w) (r : Nat) : alignReg m r = r := by
  rcases h with h | h <;> simp [alignReg, h]

@[simp] theorem alignReg_zero (m : Model) : alignReg m 0 = 0 := by simp [alignReg]

theorem alignReg_xor (m : Model) (r r' : Nat) : alignReg m (r ^^^ r') = alignReg m r ^^^ alignReg m r' := by
  unfold alignReg
  split
  · exact Nat.shiftLeft_xor_distrib
  · rfl

/-- Alignment is undone (R180). -/
@[simp] theorem unalignReg_alignReg (m : Model) (r : Nat) : unalignReg m (alignReg m r) = r := by
  unfold unalignReg alignReg
  split
  · exact Nat.shiftLeft_shiftRight ..
  · rfl

/-- An aligned register has w bits, and at least 8. -/
theorem alignReg_lt {m : Model} {r : Nat} (hr : r < 2 ^ m.w) : alignReg m r < 2 ^ max m.w 8 := by
  cases href : m.ref
  · rw [alignReg_of_norm href, Nat.shiftLeft_eq, show max m.w 8 = m.w + (8 - m.w) by omega, Nat.pow_add]
    exact Nat.mul_lt_mul_of_pos_right hr (Nat.two_pow_pos _)
  · rw [alignReg_of_ref href]
    exact hr.trans_le (Nat.pow_le_pow_right (by decide) (Nat.le_max_left ..))

/-! ## The built table -/

/-- Entry k of a built list of 256. -/
theorem entry_map_range (f : Nat → Word) {k : Nat} (hk : k < 256) : entry ((List.range 256).map f) k = (f k).toNat := by
  simp [entry, List.getD_eq_getElem?_getD, hk]

section
variable {m : Model} (hm : m.Canonical) (hw : m.w ≤ 64)
include hm hw

/-- Entry k of the built table_byte is `Q(feed(0, k))` (R181). -/
theorem entry_builtByteTable {k : Nat} (hk : k < 256) :
    entry (builtByteTable m) k = alignReg m (feed m 0 k) := by
  have hlt : alignReg m (feed m 0 k) < 2 ^ 64 :=
    (alignReg_lt (feed_lt hm (Nat.two_pow_pos _) k)).trans_le (Nat.pow_le_pow_right (by decide) (by omega))
  rw [builtByteTable, entry_map_range _ hk, byteTableEntry, BitVec.toNat_ofNat, Nat.mod_eq_of_lt hlt]

/-- One table step is a byte feed in the aligned form (R183, R184). -/
theorem tableStep_alignReg {r : Nat} (hr : r < 2 ^ m.w) {b : Nat} (hb : b < 256) :
    tableStep m (builtByteTable m) (alignReg m r) b = alignReg m (feed m r b) := by
  have hmask (x : Nat) : (x ^^^ b) &&& 0xFF = (x % 256) ^^^ b := by
    rw [show 0xFF = 2 ^ 8 - 1 from rfl, Nat.and_two_pow_sub_one_eq_mod, Nat.xor_mod_two_pow, Nat.mod_eq_of_lt hb]
  have hentry : entry (builtByteTable m) (outByte m r ^^^ b) = alignReg m (feed m 0 (outByte m r ^^^ b)) :=
    entry_builtByteTable hm hw (Nat.xor_lt_two_pow (n := 8) (outByte_lt hr) hb)
  have hout := outByte_lt hr
  rw [feed_eq_shift_xor hm hr, alignReg_xor, ← hentry, tableStep]
  cases href : m.ref
  case true => simp only [outByte, shiftByte, href, alignReg_of_ref href, hmask, if_true]
  case false =>
    rw [if_neg Bool.false_ne_true]
    split
    next hnarrow =>
      rw [outByte_of_narrow href hnarrow, shiftByte_of_narrow href hnarrow, alignReg_zero, Nat.zero_xor,
        alignReg_of_norm href]
    next hwide =>
      have hw8 : 8 ≤ m.w := Nat.le_of_not_le hwide
      rw [outByte_of_wide href hw8] at hout ⊢
      rw [alignReg_of_wide (.inr hw8), alignReg_of_wide (.inr hw8), hmask, Nat.mod_eq_of_lt hout, shiftByte, href,
        if_neg Bool.false_ne_true]

/-- The table steps over a byte string are its feed in the aligned form (R184). -/
theorem foldBytes_tableStep {r : Nat} (hr : r < 2 ^ m.w) (bs : List Byte) :
    foldBytes (tableStep m (builtByteTable m)) (alignReg m r) bs = alignReg m (feedAll m r bs) := by
  induction bs generalizing r with
  | nil => rfl
  | cons b bs ih =>
    rw [foldBytes, List.foldl_cons, tableStep_alignReg hm hw hr b.isLt]
    exact ih (feed_lt hm hr b.toNat)

end

/-! ## The commands -/

/-- BUILD_BYTE whose checks pass (R182). -/
theorem exec_buildByte {s : State} (hm : s.status.mvalid = true) (hw : s.model.w ≤ 64) :
    exec .buildByte s = .next (s.holdByteTable.complete .ok) :=
  (needModel_of_mvalid _ hm).trans (needWidth_of_le _ hw)

section
variable {s : State} (h : Inv s) (hb : s.status.bvalid = true)
include h hb

/-- A table_byte that is valid is the one of a canonical model of at most 64 bits (R43). -/
theorem Inv.byteModel : s.status.mvalid = true ∧ s.model.Canonical ∧ s.model.w ≤ 64 ∧
    s.byteTable = builtByteTable s.model :=
  have ht := h.byteTable hb
  ⟨ht.model, h.model ht.model, ht.fits, ht.content⟩

/-- The table steps of the held table_byte (R183, R184). -/
theorem Inv.foldBytes_tableStep {r : Nat} (hr : r < 2 ^ s.model.w) (bs : List Byte) :
    foldBytes (tableStep s.model s.byteTable) (alignReg s.model r) bs = alignReg s.model (feedAll s.model r bs) := by
  obtain ⟨-, hm, hw, ht⟩ := h.byteModel hb
  rw [ht]
  exact Machine.foldBytes_tableStep hm hw hr bs

/-- CRC_BYTE's value is the CRC of the bytes read (R184). -/
theorem bufferValue_crcByte (e : Bool) :
    bufferValue s (.crcByte e) = crcFrom s.model (opA s) (readBytes s (opAddr s) (opLen s)) := by
  obtain ⟨-, hm, -, -⟩ := h.byteModel hb
  calc bufferValue s (.crcByte e)
      = post s.model (unalignReg s.model
          (alignReg s.model (feedAll s.model (crcOperand s) (readBytes s (opAddr s) (opLen s))))) := by
        exact congrArg (fun q => post s.model (unalignReg s.model q)) (h.foldBytes_tableStep hb (pre_lt hm _) _)
    _ = crcFrom s.model (opA s) (readBytes s (opAddr s) (opLen s)) := by
        rw [unalignReg_alignReg]
        rfl

/-- CRC_BYTE runs as CRC_BIT, the errors of its checks and reads included (R184). -/
theorem exec_crcByte_eq_crcBit (e : Bool) : exec (.crcByte e) s = exec (.crcBit e) s := by
  obtain ⟨hm, -, hw, -⟩ := h.byteModel hb
  have hrun : byteCrc s = bitCrc s := by
    rw [byteCrc_eq, bitCrc_eq, bufferRun, bufferValue_crcByte h hb]
    rfl
  rw [exec, exec, execCrcByte, execCrcBit, needWidth_of_le _ hw, needTable_of_valid _ hb, hrun]

end

/-! ## Single entries -/

@[simp] theorem feed_zero_zero (m : Model) : feed m 0 0 = 0 := by
  have h := feed_xor m 0 0 0 0
  rwa [Nat.xor_self, Nat.xor_self] at h

/-- A 1 bit that meets the zero register leaves the polynomial (R160, R161). -/
theorem stepBit_zero_true (m : Model) : stepBit m 0 true = m.poly.toNat := by
  unfold stepBit
  split <;> simp [stepRef, stepNorm, bit]

/-- The last bit of 0x80 is the one that meets the register, when reflected. -/
theorem feed_zero_last_of_ref {m : Model} (href : m.ref = true) : feed m 0 0x80 = m.poly.toNat := by
  have hseven : feedBits m 0x80 7 0 = 0 := feedBits_ref_of_agree href (by decide)
  have hlast : fedBit m 0x80 7 = true := if_pos href
  rw [feed, feedBits, hseven, hlast, stepBit_zero_true]

/-- The last bit of 1 is the one that meets the register, when normal. -/
theorem feed_zero_last_of_norm {m : Model} (href : m.ref = false) : feed m 0 1 = m.poly.toNat := by
  have hone : ∀ i < 7, bit 1 (7 - i) = false := by decide
  have hseven : feedBits m 1 7 0 = 0 := by
    rw [feedBits_norm_of_agree href (Nat.two_pow_pos _) fun i hi => by
      rw [hone i hi, Nat.zero_shiftLeft, Nat.zero_and, bit, Nat.zero_testBit], Nat.zero_shiftLeft, Nat.zero_and]
  have hlast : fedBit m 1 7 = true := by rw [fedBit, href]; rfl
  rw [feed, feedBits, hseven, hlast, stepBit_zero_true]

/-! ## The obligations -/

/-- Settles O33: BUILD_BYTE's checks pass, and the entries are those of the built table. -/
theorem buildByteFillsTheTable : Obligations.BuildByteFillsTheTable := fun s hv hm hw =>
  ⟨_, exec_buildByte hv hw, rfl, rfl, rfl, builtByteTable_length s.model, fun _ => entry_builtByteTable hm hw⟩

/-- Settles O37: CRC_BYTE completes with its value, the CRC of the bytes read. -/
theorem crcByteComputesTheCrc : Obligations.CrcByteComputesTheCrc := by
  intro s h hchecks hreads
  have ⟨_, _, hb, _⟩ := hchecks
  rw [exec_of_answers hchecks hreads, bufferValue_crcByte h hb]

/-- Settles O52: the table step is the byte feed because the entries are the feeds from the zero register. -/
theorem tableStepEqualsByteFeed : Obligations.TableStepEqualsByteFeed :=
  ⟨fun _ hm hw _ hr _ hb => tableStep_alignReg hm hw hr hb, fun _ e h hb => exec_crcByte_eq_crcBit h hb e⟩

/-- Settles O53: every clause is one about the feed of a single byte from the zero register. -/
theorem byteTableProperties : Obligations.ByteTableProperties := by
  rintro m t hm hw rfl
  have hentry {k : Nat} (hk : k < 256) := entry_builtByteTable hm hw hk
  refine ⟨fun a ha b hb => ?_, ?_, fun href => ?_, fun href => ?_,
    fun k hk => ⟨fun hwide => ?_, fun href hnarrow => ?_⟩⟩
  · rw [hentry (Nat.xor_lt_two_pow (n := 8) ha hb), hentry ha, hentry hb, ← alignReg_xor, ← feed_xor, Nat.xor_self]
  · rw [hentry (by decide), feed_zero_zero, alignReg_zero]
  · rw [hentry (by decide), alignReg_of_ref href, feed_zero_last_of_ref href]
  · rw [hentry (by decide), feed_zero_last_of_norm href]
  · rw [hentry hk, alignReg_of_wide hwide]
    exact feed_lt hm (Nat.two_pow_pos _) k
  · have hlt := alignReg_lt (feed_lt hm (Nat.two_pow_pos _) k)
    rw [Nat.max_eq_right hnarrow.le] at hlt
    rw [hentry hk]
    refine ⟨hlt, ?_⟩
    rw [alignReg_of_norm href, Nat.shiftLeft_eq, Nat.mul_mod_left]

end Sys2Proof.Machine
end

section
/-! # Words and their bytes (O54)

A word of B bytes is `wordOfBytes` of its bytes in either order, and the swap turns the one order into the other
(`byteSwap_wordOfBytes`). Its equations follow, and those of place and unplace (R76, R191, R192). -/

namespace Sys2Proof.Machine

/-! ## A word as a list of bytes -/

/-- The `b` low bytes of `v`, the lowest first. -/
def bytesOf (v b : Nat) : List Byte := (List.range b).map fun i => BitVec.ofNat 8 (field v (8 * i) 8)

@[simp] theorem bytesOf_length (v b : Nat) : (bytesOf v b).length = b := by simp [bytesOf]

@[simp] theorem wordOfBytes_nil (little : Bool) : wordOfBytes little [] = 0 := by cases little <;> rfl

theorem wordOfBytes_true_cons (x : Byte) (bs : List Byte) :
    wordOfBytes true (x :: bs) = x.toNat + 256 * wordOfBytes true bs := rfl

/-- The big-endian word is the little-endian one of the bytes in the opposite order (R76). -/
theorem wordOfBytes_false (bs : List Byte) : wordOfBytes false bs = wordOfBytes true bs.reverse := by
  simp [wordOfBytes, List.foldr_reverse, Nat.add_comm]

theorem field_byte_lt (v lo : Nat) : field v lo 8 < 256 := Nat.mod_lt _ (by decide)

/-- Byte j + 1 of a word is byte j of the word without its lowest byte. -/
theorem field_succ (v j : Nat) : field v (8 * (j + 1)) 8 = field (v / 256) (8 * j) 8 := by
  rw [field, field, Nat.mul_succ, Nat.add_comm, Nat.shiftRight_add, Nat.shiftRight_eq_div_pow v 8]

theorem bytesOf_succ (v b : Nat) : bytesOf v (b + 1) = BitVec.ofNat 8 v :: bytesOf (v / 256) b := by
  have hlow : BitVec.ofNat 8 (field v (8 * 0) 8) = BitVec.ofNat 8 v :=
    BitVec.eq_of_toNat_eq (Nat.mod_mod ..)
  rw [bytesOf, List.range_succ_eq_map, List.map_cons, List.map_map, hlow]
  simp only [Function.comp_def, field_succ, bytesOf]

/-- Byte j of a little-endian word. -/
theorem field_wordOfBytes_true (bs : List Byte) (j : Nat) :
    field (wordOfBytes true bs) (8 * j) 8 = (bs.getD j 0).toNat := by
  induction bs generalizing j with
  | nil => simp [field]
  | cons x bs ih =>
    have hx := x.isLt
    rw [wordOfBytes_true_cons]
    cases j with
    | zero =>
      rw [Nat.mul_zero, List.getD_cons_zero]
      exact (Nat.add_mul_mod_self_left ..).trans (Nat.mod_eq_of_lt hx)
    | succ j => rw [field_succ, show (x.toNat + 256 * wordOfBytes true bs) / 256 = wordOfBytes true bs by omega, ih,
        List.getD_cons_succ]

/-- The bytes of a little-endian word. -/
theorem bytesOf_wordOfBytes (bs : List Byte) : bytesOf (wordOfBytes true bs) bs.length = bs := by
  refine List.ext_getElem (bytesOf_length ..) fun i hi hi' => ?_
  simp [bytesOf, field_wordOfBytes_true, List.getD_eq_getElem?_getD, hi']

/-- A word is the little-endian word of its bytes. -/
theorem wordOfBytes_bytesOf (v b : Nat) : wordOfBytes true (bytesOf v b) = v % 2 ^ (8 * b) := by
  induction b generalizing v with
  | zero => simp [bytesOf, Nat.mod_one]
  | succ b ih =>
    have hpow : 2 ^ (8 * (b + 1)) = 256 * 2 ^ (8 * b) := by rw [Nat.mul_succ, Nat.pow_add, Nat.mul_comm]
    rw [bytesOf_succ, wordOfBytes_true_cons, ih, hpow, Nat.mod_mul]
    rfl

/-- A word of B bytes is below 2^(8·B). -/
theorem wordOfBytes_lt (little : Bool) (bs : List Byte) : wordOfBytes little bs < 2 ^ (8 * bs.length) := by
  have htrue (bs : List Byte) : wordOfBytes true bs < 2 ^ (8 * bs.length) := by
    conv_lhs => rw [← bytesOf_wordOfBytes bs, wordOfBytes_bytesOf]
    exact Nat.mod_lt _ (Nat.two_pow_pos _)
  cases little
  · rw [wordOfBytes_false, ← List.length_reverse]
    exact htrue _
  · exact htrue bs

/-- XOR of two numbers with a byte each below. -/
theorem byte_add_xor (x x' : Byte) (v v' : Nat) :
    (x.toNat + 256 * v) ^^^ (x'.toNat + 256 * v') = (x ^^^ x').toNat + 256 * (v ^^^ v') := by
  have hx := x.isLt
  have hx' := x'.isLt
  have hdiv {y : Nat} (hy : y < 2 ^ 8) (u : Nat) : (y + 256 * u) / 2 ^ 8 = u := by omega
  have hmod {y : Nat} (hy : y < 2 ^ 8) (u : Nat) : (y + 256 * u) % 2 ^ 8 = y := by omega
  rw [← Nat.mod_add_div ((x.toNat + 256 * v) ^^^ (x'.toNat + 256 * v')) (2 ^ 8), Nat.xor_mod_two_pow,
    Nat.xor_div_two_pow, hdiv hx, hdiv hx', hmod hx, hmod hx', BitVec.toNat_xor]
  rfl

/-- The word of bytes XORed is the XOR of the words. -/
theorem wordOfBytes_zipWith_xor (little : Bool) {bs bs' : List Byte} (h : bs.length = bs'.length) :
    wordOfBytes little (List.zipWith (· ^^^ ·) bs bs') = wordOfBytes little bs ^^^ wordOfBytes little bs' := by
  have htrue : ∀ {bs bs' : List Byte}, bs.length = bs'.length →
      wordOfBytes true (List.zipWith (· ^^^ ·) bs bs') = wordOfBytes true bs ^^^ wordOfBytes true bs' := by
    intro bs bs' h
    induction bs generalizing bs' with
    | nil => rw [List.length_eq_zero_iff.1 h.symm]; rfl
    | cons x bs ih =>
      cases bs' with
      | nil => cases h
      | cons x' bs' =>
        simp only [List.zipWith_cons_cons, wordOfBytes_true_cons, ih (Nat.succ.inj h), byte_add_xor]
  cases little
  · simp only [wordOfBytes_false, List.reverse_zipWith h, htrue (show bs.reverse.length = bs'.reverse.length by simpa)]
  · exact htrue h

/-! ## The swap -/

/-- The swap takes the bytes from the lowest up and puts them together from the highest down (R191). -/
theorem byteSwap_eq (v b : Nat) : byteSwap v b = wordOfBytes false (bytesOf v b) := by
  induction b with
  | zero => rfl
  | succ b ih =>
    rw [byteSwap, ih, bytesOf, bytesOf, List.range_succ]
    simp [wordOfBytes, Nat.mod_eq_of_lt (field_byte_lt v (8 * b))]

/-- The swap turns a word in one byte order into the word of the same bytes in the other (R191). -/
theorem byteSwap_wordOfBytes (little : Bool) (bs : List Byte) :
    byteSwap (wordOfBytes little bs) bs.length = wordOfBytes (!little) bs := by
  have htrue (bs : List Byte) : byteSwap (wordOfBytes true bs) bs.length = wordOfBytes false bs := by
    rw [byteSwap_eq, bytesOf_wordOfBytes]
  cases little
  · have h := htrue bs.reverse
    rwa [List.length_reverse, ← wordOfBytes_false, wordOfBytes_false bs.reverse, List.reverse_reverse] at h
  · exact htrue bs

theorem byteSwap_lt (v b : Nat) : byteSwap v b < 2 ^ (8 * b) := by
  have h := wordOfBytes_lt false (bytesOf v b)
  rwa [← byteSwap_eq, bytesOf_length] at h

/-- Swapping twice gives the word (R191). -/
theorem byteSwap_byteSwap {v b : Nat} (hv : v < 2 ^ (8 * b)) : byteSwap (byteSwap v b) b = v := by
  have h := byteSwap_wordOfBytes false (bytesOf v b)
  rwa [bytesOf_length, ← byteSwap_eq, Bool.not_false, wordOfBytes_bytesOf, Nat.mod_eq_of_lt hv] at h

/-- Byte i of the swapped word is byte B − 1 − i (R191). -/
theorem field_byteSwap (v : Nat) {b i : Nat} (hi : i < b) :
    field (byteSwap v b) (8 * i) 8 = field v (8 * (b - 1 - i)) 8 := by
  have hlt : b - 1 - i < b := by omega
  rw [byteSwap_eq, wordOfBytes_false, field_wordOfBytes_true, List.getD_eq_getElem?_getD,
    List.getElem?_reverse (by simpa using hi), bytesOf_length]
  simp [bytesOf, hlt, Nat.mod_eq_of_lt (field_byte_lt v _)]

theorem bytesOf_xor (v v' b : Nat) :
    bytesOf (v ^^^ v') b = List.zipWith (· ^^^ ·) (bytesOf v b) (bytesOf v' b) := by
  have hfield (i : Nat) : field (v ^^^ v') (8 * i) 8 = field v (8 * i) 8 ^^^ field v' (8 * i) 8 := by
    rw [field, Nat.shiftRight_xor_distrib, Nat.xor_mod_two_pow]; rfl
  simp [bytesOf, List.zipWith_map, hfield, BitVec.ofNat_xor]

/-- The swap distributes over XOR (R192). -/
theorem byteSwap_xor (v v' b : Nat) : byteSwap (v ^^^ v') b = byteSwap v b ^^^ byteSwap v' b := by
  rw [byteSwap_eq, bytesOf_xor, wordOfBytes_zipWith_xor false (by simp), ← byteSwap_eq, ← byteSwap_eq]

/-! ## place and unplace -/

theorem place_of_eq {m : Model} {little : Bool} (h : little = m.ref) (b q : Nat) :
    place m b little q = q <<< laneTop m b := if_pos h

theorem place_of_ne {m : Model} {little : Bool} (h : little ≠ m.ref) (b q : Nat) :
    place m b little q = byteSwap (q <<< laneTop m b) b := if_neg h

/-- place distributes over XOR (R192). -/
theorem place_xor (m : Model) (b : Nat) (little : Bool) (q q' : Nat) :
    place m b little (q ^^^ q') = place m b little q ^^^ place m b little q' := by
  unfold place
  split
  · exact Nat.shiftLeft_xor_distrib
  · rw [Nat.shiftLeft_xor_distrib, byteSwap_xor]

/-- unplace distributes over XOR (R192). -/
theorem unplace_xor (m : Model) (b : Nat) (little : Bool) (v v' : Nat) :
    unplace m b little (v ^^^ v') = unplace m b little v ^^^ unplace m b little v' := by
  unfold unplace
  split
  · exact Nat.shiftRight_xor_distrib
  · rw [byteSwap_xor, Nat.shiftRight_xor_distrib]

section
variable {m : Model} {b : Nat} (hb : max m.w 8 ≤ 8 * b)
include hb

/-- An aligned register still fits the word when it stands at `top` (R190). -/
theorem shiftLeft_laneTop_lt {q : Nat} (hq : q < 2 ^ max m.w 8) : q <<< laneTop m b < 2 ^ (8 * b) := by
  have htop : laneTop m b ≤ 8 * b - max m.w 8 := by unfold laneTop; split <;> omega
  calc q <<< laneTop m b
      = q * 2 ^ laneTop m b := Nat.shiftLeft_eq ..
    _ < 2 ^ max m.w 8 * 2 ^ laneTop m b := Nat.mul_lt_mul_of_pos_right hq (Nat.two_pow_pos _)
    _ = 2 ^ (max m.w 8 + laneTop m b) := (Nat.pow_add ..).symm
    _ ≤ 2 ^ (8 * b) := Nat.pow_le_pow_right (by decide) (by omega)

theorem place_lt (little : Bool) {q : Nat} (hq : q < 2 ^ max m.w 8) : place m b little q < 2 ^ (8 * b) := by
  unfold place
  split
  · exact shiftLeft_laneTop_lt hb hq
  · exact byteSwap_lt _ b

/-- unplace undoes place on the aligned registers (R192). -/
theorem unplace_place (little : Bool) {q : Nat} (hq : q < 2 ^ max m.w 8) :
    unplace m b little (place m b little q) = q := by
  unfold unplace place
  split
  · exact Nat.shiftLeft_shiftRight ..
  · rw [byteSwap_byteSwap (shiftLeft_laneTop_lt hb hq), Nat.shiftLeft_shiftRight]

end

/-- Settles O54: the swap reverses the list of a word's bytes, and place and unplace are a shift and a swap. -/
theorem swapAndPlaceAreInvertibleAndLinear : Obligations.SwapAndPlaceAreInvertibleAndLinear := by
  refine ⟨fun b v hv => ⟨fun i hi => field_byteSwap v hi, byteSwap_lt v b, byteSwap_byteSwap hv⟩, ?_, ?_⟩
  · rintro m b top little rfl q v
    rw [ite_not, ite_not]
    exact ⟨rfl, rfl⟩
  · intro m b little hb hw
    have hmax : max m.w 8 ≤ 8 * b := by omega
    exact ⟨fun q hq => ⟨unplace_place hmax little hq, place_lt hmax little hq⟩,
      fun q _ q' _ => place_xor m b little q q', fun v _ v' _ => unplace_xor m b little v v'⟩

end Sys2Proof.Machine
end

section
/-! # The word table (O34, O38, O55, O56)

Fed the bytes it is made of, a register that fits the word becomes zero (`feedAll_outBytes`), and those bytes form its
placed form (`wordOfBytes_outBytes`). So the placed register XORed with the message word is a word whose bytes, fed
into the zero register, give what the message gives from the register, and each lane of the bulk loop looks up what
one of these bytes comes to at the end of the word (R190 to R197). -/

namespace Sys2Proof.Machine

/-! ## Placed registers -/

/-- A register in aligned form, placed in the word of the bulk loop (R192). -/
def placedReg (m : Model) (b : Nat) (little : Bool) (r : Nat) : Nat := place m b little (alignReg m r)

theorem placedReg_xor (m : Model) (b : Nat) (little : Bool) (r r' : Nat) :
    placedReg m b little (r ^^^ r') = placedReg m b little r ^^^ placedReg m b little r' := by
  rw [placedReg, alignReg_xor, place_xor]
  rfl

@[simp] theorem placedReg_zero (m : Model) (b : Nat) (little : Bool) : placedReg m b little 0 = 0 := by
  have h := placedReg_xor m b little 0 0
  rwa [Nat.xor_self, Nat.xor_self] at h

theorem unplace_placedReg {m : Model} {b : Nat} (hb : max m.w 8 ≤ 8 * b) (little : Bool) {r : Nat}
    (hr : r < 2 ^ m.w) : unplace m b little (placedReg m b little r) = alignReg m r :=
  unplace_place hb little (alignReg_lt hr)

/-! ## The bytes of a register -/

/-- The bytes that leave the register in `n` byte feeds which bring in the byte that leaves. -/
def outBytes (m : Model) : Nat → Nat → List Byte
  | 0, _ => []
  | n + 1, r => BitVec.ofNat 8 (outByte m r) :: outBytes m n (shiftByte m r)

@[simp] theorem outBytes_length (m : Model) (n r : Nat) : (outBytes m n r).length = n := by
  induction n generalizing r with
  | zero => rfl
  | succ n ih => rw [outBytes, List.length_cons, ih]

theorem toNat_ofNat_outByte {m : Model} {r : Nat} (hr : r < 2 ^ m.w) :
    (BitVec.ofNat 8 (outByte m r)).toNat = outByte m r := Nat.mod_eq_of_lt (outByte_lt hr)

/-- Fed the bytes that leave it, the register only shifts. -/
theorem feedAll_outBytes_shift {m : Model} (hm : m.Canonical) (n : Nat) {r : Nat} (hr : r < 2 ^ m.w) :
    feedAll m r (outBytes m n r) = if m.ref then r >>> (8 * n) else (r <<< (8 * n)) &&& ones m.w := by
  induction n generalizing r with
  | zero =>
    split
    · rfl
    · exact (and_ones_of_lt hr).symm
  | succ n ih =>
    have hfirst : feedAll m r (outBytes m (n + 1) r) = feedAll m (shiftByte m r) (outBytes m n (shiftByte m r)) := by
      rw [outBytes, feedAll, List.foldl_cons, toNat_ofNat_outByte hr, feed_outByte hm hr]
      rfl
    rw [hfirst, ih (shiftByte_lt hr), shiftByte, Nat.mul_succ, Nat.add_comm]
    split
    · rw [Nat.shiftRight_add]
    · rw [shiftLeft_and_ones, Nat.shiftLeft_add]

/-- Fed all the bytes it is made of, the register becomes zero. -/
theorem feedAll_outBytes {m : Model} (hm : m.Canonical) {b r : Nat} (hb : m.w ≤ 8 * b) (hr : r < 2 ^ m.w) :
    feedAll m r (outBytes m b r) = 0 := by
  rw [feedAll_outBytes_shift hm b hr]
  split
  · exact shiftRight_eq_zero_iff.2 (hr.trans_le (Nat.pow_le_pow_right (by decide) hb))
  · rw [ones, Nat.and_two_pow_sub_one_eq_mod, Nat.shiftLeft_eq]
    exact Nat.mod_eq_zero_of_dvd (Dvd.dvd.mul_left (Nat.pow_dvd_pow 2 hb) r)

/-- The bytes of a reflected register, the first in the low lane. -/
theorem wordOfBytes_outBytes_ref {m : Model} (href : m.ref = true) (n r : Nat) :
    wordOfBytes true (outBytes m n r) = r % 2 ^ (8 * n) := by
  have hbytes : outBytes m n r = bytesOf r n := by
    induction n generalizing r with
    | zero => rfl
    | succ n ih =>
      rw [outBytes, bytesOf_succ, ih, outByte, shiftByte, if_pos href, if_pos href, Nat.shiftRight_eq_div_pow]
      congr 1
      exact BitVec.eq_of_toNat_eq (Nat.mod_mod ..)
  rw [hbytes, wordOfBytes_bytesOf]

/-- The bytes of a normal register, the first in the high lane, below the bytes `acc` that came before. -/
theorem foldl_outBytes_norm {m : Model} (href : m.ref = false) (n acc : Nat) {r : Nat} (hr : r < 2 ^ m.w) :
    (outBytes m n r).foldl (fun acc b => 256 * acc + b.toNat) acc =
      acc * 2 ^ (8 * n) + r * 2 ^ (8 * n) / 2 ^ m.w := by
  induction n generalizing acc r with
  | zero => simp [outBytes, Nat.div_eq_of_lt hr]
  | succ n ih =>
    have hout : outByte m r = r * 256 / 2 ^ m.w := by
      simp [outByte, href, Nat.shiftRight_eq_div_pow, Nat.shiftLeft_eq]
    have hshift : shiftByte m r = r * 256 % 2 ^ m.w := by
      simp [shiftByte, href, ones, Nat.shiftLeft_eq]
    have hsplit : r * (256 * 2 ^ (8 * n)) =
        2 ^ m.w * (r * 256 / 2 ^ m.w * 2 ^ (8 * n)) + r * 256 % 2 ^ m.w * 2 ^ (8 * n) := by
      rw [← Nat.mul_assoc, ← Nat.mul_assoc, ← Nat.add_mul, Nat.div_add_mod]
    rw [outBytes, List.foldl_cons, toNat_ofNat_outByte hr, ih _ (shiftByte_lt hr), hout, hshift,
      show 2 ^ (8 * (n + 1)) = 256 * 2 ^ (8 * n) by rw [Nat.mul_succ, Nat.pow_add, Nat.mul_comm], hsplit,
      Nat.mul_add_div (Nat.two_pow_pos _)]
    ring

/-- The bytes of the register form the placed register (R192). -/
theorem wordOfBytes_outBytes {m : Model} {b : Nat} (hb : max m.w 8 ≤ 8 * b) (little : Bool) {r : Nat}
    (hr : r < 2 ^ m.w) : wordOfBytes little (outBytes m b r) = placedReg m b little r := by
  have hsame : wordOfBytes m.ref (outBytes m b r) = alignReg m r <<< laneTop m b := by
    cases href : m.ref
    case true =>
      rw [wordOfBytes_outBytes_ref href, alignReg_of_ref href, laneTop, if_pos href, Nat.shiftLeft_zero]
      exact Nat.mod_eq_of_lt (hr.trans_le (Nat.pow_le_pow_right (by decide) (by omega)))
    case false =>
      have htop : 8 * b = (8 - m.w) + laneTop m b + m.w := by rw [laneTop, href, if_neg Bool.false_ne_true]; omega
      have hword : wordOfBytes false (outBytes m b r) = r * 2 ^ (8 * b) / 2 ^ m.w := by
        simpa [wordOfBytes] using foldl_outBytes_norm href b 0 hr
      rw [hword, alignReg_of_norm href, ← Nat.shiftLeft_add, Nat.shiftLeft_eq, htop, Nat.pow_add, ← Nat.mul_assoc,
        Nat.mul_div_cancel _ (Nat.two_pow_pos _)]
  by_cases hlittle : little = m.ref
  · rw [placedReg, place_of_eq hlittle, hlittle, hsame]
  · have hswap := byteSwap_wordOfBytes m.ref (outBytes m b r)
    rw [outBytes_length, hsame, ← Bool.eq_not.2 hlittle] at hswap
    rw [placedReg, place_of_ne hlittle, hswap]

/-! ## What stands in the rows -/

theorem foldBytes_replicate_zero (upd : Nat → Nat → Nat) (q n : Nat) :
    foldBytes upd q (List.replicate n 0) = applyTimes (fun q => upd q 0) n q := by
  induction n generalizing q with
  | zero => rfl
  | succ n ih => exact ih (upd q 0)

section
variable {m : Model} (hm : m.Canonical) {b : Nat} (hb : max m.w 8 ≤ 8 * b) (hb8 : b ≤ 8)
include hm hb hb8

/-- Entry k of row n is the placed register after the byte k and n zero bytes (R193). -/
theorem entry_builtWordRow (little : Bool) (n : Nat) {k : Nat} (hk : k < 256) :
    entry (builtWordRow m (builtByteTable m) b little n) k =
      placedReg m b little (feedAll m 0 (BitVec.ofNat 8 k :: List.replicate n 0)) := by
  have hw : m.w ≤ 64 := by omega
  have hzero : (0 : Nat) < 2 ^ m.w := Nat.two_pow_pos _
  have hsteps : applyTimes (fun q => tableStep m (builtByteTable m) q 0) n (entry (builtByteTable m) k) =
      alignReg m (feedAll m 0 (BitVec.ofNat 8 k :: List.replicate n 0)) := by
    rw [← foldBytes_replicate_zero, entry_builtByteTable hm hw hk, foldBytes_tableStep hm hw (feed_lt hm hzero k),
      feedAll, feedAll, List.foldl_cons, BitVec.toNat_ofNat, Nat.mod_eq_of_lt hk]
  have hlt : placedReg m b little (feedAll m 0 (BitVec.ofNat 8 k :: List.replicate n 0)) < 2 ^ 64 :=
    (place_lt hb little (alignReg_lt (feedAll_lt hm hzero _))).trans_le (Nat.pow_le_pow_right (by decide) (by omega))
  rw [builtWordRow, entry_map_range _ hk, wordTableEntry, hsteps, BitVec.toNat_ofNat]
  exact Nat.mod_eq_of_lt hlt

end

/-! ## The lanes of a word -/

/-- The XOR of `f 0`, …, `f (n − 1)`. -/
def xorBelow (f : Nat → Nat) : Nat → Nat
  | 0 => 0
  | n + 1 => xorBelow f n ^^^ f n

theorem xorBelow_congr {f g : Nat → Nat} {n : Nat} (h : ∀ j < n, f j = g j) : xorBelow f n = xorBelow g n := by
  induction n with
  | zero => rfl
  | succ n ih => rw [xorBelow, xorBelow, ih fun j hj => h j (by omega), h n (by omega)]

theorem xorBelow_succ_first (f : Nat → Nat) (n : Nat) :
    xorBelow f (n + 1) = f 0 ^^^ xorBelow (fun j => f (j + 1)) n := by
  induction n with
  | zero => exact Nat.xor_comm ..
  | succ n ih => rw [xorBelow, ih, Nat.xor_assoc]; rfl

/-- The order of the terms does not matter: from the last to the first. -/
theorem xorBelow_reverse (f : Nat → Nat) (n : Nat) : xorBelow f n = xorBelow (fun j => f (n - 1 - j)) n := by
  induction n generalizing f with
  | zero => rfl
  | succ n ih =>
    have hrest : xorBelow (fun j => f (n - 1 - j + 1)) n = xorBelow (fun j => f (n + 1 - 1 - j)) n :=
      xorBelow_congr fun j hj => congrArg f (by omega)
    rw [xorBelow_succ_first, ih, hrest, Nat.xor_comm, xorBelow, Nat.add_sub_cancel, Nat.sub_self]

theorem laneXor_eq (t : List (List Word)) (b : Nat) (little : Bool) (x n : Nat) :
    laneXor t b little x n = xorBelow (fun j => wordEntry t (laneRow b little j) (field x (8 * j) 8)) n := by
  induction n with
  | zero => rfl
  | succ n ih => rw [laneXor, ih]; rfl

/-- In either byte order, the byte with j bytes behind it is looked up in row j (R195). -/
theorem laneXor_wordOfBytes (t : List (List Word)) (little : Bool) (bs : List Byte) :
    laneXor t bs.length little (wordOfBytes little bs) bs.length =
      xorBelow (fun j => wordEntry t j (bs.reverse.getD j 0).toNat) bs.length := by
  rw [laneXor_eq]
  cases little
  case false => simp only [laneRow, wordOfBytes_false, field_wordOfBytes_true, Bool.false_eq_true, if_false]
  case true =>
    rw [xorBelow_reverse]
    refine xorBelow_congr fun j hj => ?_
    have hrow : laneRow bs.length true (bs.length - 1 - j) = j := by rw [laneRow, if_pos rfl]; omega
    rw [hrow, field_wordOfBytes_true, List.getD_eq_getElem?_getD, List.getD_eq_getElem?_getD, List.getElem?_reverse hj]

/-- The feed of a string is that of as many zero bytes, XOR that of the string from the zero register. -/
theorem feedAll_eq_zeros_xor (m : Model) (r : Nat) (bs : List Byte) :
    feedAll m r bs = feedAll m r (List.replicate bs.length 0) ^^^ feedAll m 0 bs := by
  have hzip : List.zipWith (· ^^^ ·) (List.replicate bs.length 0) bs = bs := by
    induction bs with
    | nil => rfl
    | cons b bs ih => exact congrArg₂ List.cons (BitVec.zero_xor ..) ih
  rw [← feedAll_zipWith_xor m r 0 (by simp), hzip, Nat.xor_zero]

section
variable {m : Model} (hm : m.Canonical) {b : Nat} (hb : max m.w 8 ≤ 8 * b) (hb8 : b ≤ 8) {little : Bool}
  {t : List (List Word)} (hrows : ∀ n < b, t.getD n [] = builtWordRow m (builtByteTable m) b little n)
include hm hb hb8 hrows

theorem wordEntry_of_rows {n k : Nat} (hn : n < b) (hk : k < 256) :
    wordEntry t n k = placedReg m b little (feedAll m 0 (BitVec.ofNat 8 k :: List.replicate n 0)) := by
  rw [wordEntry, hrows n hn, entry_builtWordRow hm hb hb8 little n hk]

/-- The lookups of all bytes of a word come to its feed into the zero register. -/
theorem xorBelow_rows {bs : List Byte} (hlen : bs.length ≤ b) :
    xorBelow (fun j => wordEntry t j (bs.reverse.getD j 0).toNat) bs.length =
      placedReg m b little (feedAll m 0 bs) := by
  induction bs with
  | nil => exact (placedReg_zero ..).symm
  | cons x bs ih =>
    have hlast : (x :: bs).reverse.getD bs.length 0 = x := by simp [List.getD_eq_getElem?_getD]
    have hrest : ∀ j < bs.length, (x :: bs).reverse.getD j 0 = bs.reverse.getD j 0 := fun j hj => by
      rw [List.reverse_cons, List.getD_append _ _ _ _ (by simpa using hj)]
    have hfeed : feedAll m 0 (x :: bs) = feedAll m 0 (x :: List.replicate bs.length 0) ^^^ feedAll m 0 bs :=
      feedAll_eq_zeros_xor m (feed m 0 x.toNat) bs
    rw [List.length_cons] at hlen ⊢
    rw [xorBelow, xorBelow_congr fun j hj => by rw [hrest j hj], ih (by omega), hlast,
      wordEntry_of_rows hm hb hb8 hrows hlen x.isLt, BitVec.ofNat_toNat, BitVec.setWidth_eq, hfeed, placedReg_xor,
      Nat.xor_comm]

/-- One step of the bulk loop advances the placed register over the bytes of the word (R195). -/
theorem wordStep_placedReg {r : Nat} (hr : r < 2 ^ m.w) {bs : List Byte} (hlen : bs.length = b) :
    wordStep t b little (placedReg m b little r) (wordOfBytes little bs) = placedReg m b little (feedAll m r bs) := by
  have hout : (outBytes m b r).length = bs.length := by rw [outBytes_length, hlen]
  have hxlen : (List.zipWith (· ^^^ ·) (outBytes m b r) bs).length = b := by simp [hlen]
  have hfeed : feedAll m 0 (List.zipWith (· ^^^ ·) (outBytes m b r) bs) = feedAll m r bs := by
    conv_lhs => rw [← Nat.xor_self r]
    rw [feedAll_zipWith_xor m r r hout, feedAll_outBytes hm (by omega) hr, Nat.zero_xor]
  have hlanes := laneXor_wordOfBytes t little (List.zipWith (· ^^^ ·) (outBytes m b r) bs)
  rw [xorBelow_rows hm hb hb8 hrows hxlen.le, hxlen, hfeed, wordOfBytes_zipWith_xor little hout,
    wordOfBytes_outBytes hb little hr] at hlanes
  exact hlanes

/-- The bulk loop advances the placed register over all bytes of its words (R197). -/
theorem foldWords_placedReg {r : Nat} (hr : r < 2 ^ m.w) {ws : List (List Byte)} (hlen : ∀ bs ∈ ws, bs.length = b) :
    foldWords t b little (placedReg m b little r) ws = placedReg m b little (feedAll m r ws.flatten) := by
  induction ws generalizing r with
  | nil => rfl
  | cons bs ws ih =>
    obtain ⟨hbs, hws⟩ := List.forall_mem_cons.1 hlen
    rw [foldWords, List.foldl_cons, wordStep_placedReg hm hb hb8 hrows hr hbs, List.flatten_cons, feedAll_append]
    exact ih (feedAll_lt hm hr bs) hws

end

/-! ## The commands -/

/-- BUILD_WORD whose checks pass (R194). -/
theorem exec_buildWord {s : State} (hm : s.status.mvalid = true)
    (hw : s.model.w ≤ min 64 (8 * wordBytes s.commandRegs.w8)) (hb : s.status.bvalid = true) :
    exec .buildWord s = .next ((s.holdWordTable s.commandRegs).complete .ok) :=
  (needModel_of_mvalid _ hm).trans ((needWidth_of_le _ hw).trans (needTable_of_valid _ hb))

/-- A model that fits the word fits it in aligned form. -/
theorem max_width_le_word {w : Nat} {w8 : Bool} (hw : w ≤ 8 * wordBytes w8) : max w 8 ≤ 8 * wordBytes w8 := by
  have hpos := wordBytes_pos w8
  omega

theorem readBytes_add (s : State) (a n k : Nat) :
    readBytes s a (n + k) = readBytes s a n ++ readBytes s (a + n) k := by
  simp [readBytes, List.range_add, Nat.add_assoc]

/-- The words of the bulk loop are the bytes of their part of the buffer (R76). -/
theorem flatten_readWords (s : State) (b a n : Nat) : (readWords s b a n).flatten = readBytes s a (b * n) := by
  induction n generalizing a with
  | zero => rfl
  | succ n ih => rw [readWords_succ, List.flatten_cons, ih, Nat.mul_succ, Nat.add_comm (b * n), readBytes_add]

section
variable {s : State} (h : Inv s) (hv : s.status.wvalid = true)
include h hv

/-- The rows of a table_word that is valid are those of the held model (R43). -/
theorem Inv.wordRows {n : Nat} (hn : n < wordBytes s.wtblW8) :
    s.wordTable.getD n [] =
      builtWordRow s.model (builtByteTable s.model) (wordBytes s.wtblW8) s.wtblLittle n := by
  obtain ⟨hb, -, hcontent⟩ := h.wordTable hv
  obtain ⟨-, -, -, ht⟩ := h.byteModel hb
  rw [hcontent n hn, ht]

/-- The bulk loop advances an aligned register over the bytes of its words (R197). -/
theorem bulkOf_alignReg {r : Nat} (hr : r < 2 ^ s.model.w) {ws : List (List Byte)}
    (hlen : ∀ bs ∈ ws, bs.length = wordBytes s.wtblW8) :
    bulkOf s (wordBytes s.wtblW8) s.wtblLittle (alignReg s.model r) ws =
      alignReg s.model (feedAll s.model r ws.flatten) := by
  obtain ⟨hb, hw, -⟩ := h.wordTable hv
  obtain ⟨-, hm, -, -⟩ := h.byteModel hb
  have hfold := foldWords_placedReg hm (max_width_le_word hw) (wordBytes_le _) (fun _ => h.wordRows hv) hr hlen
  unfold bulkOf
  split
  · next hempty => rw [List.isEmpty_iff.1 hempty]; rfl
  · rw [← placedReg, hfold, unplace_placedReg (max_width_le_word hw) _ (feedAll_lt hm hr _)]

/-- CRC_WORD's value is the CRC of the bytes before its words, of its words and of the bytes after them. -/
theorem wordCrcOf_eq (first last : List Byte) {ws : List (List Byte)}
    (hlen : ∀ bs ∈ ws, bs.length = wordBytes s.wtblW8) :
    wordCrcOf s first ws last = crcFrom s.model (opA s) (first ++ ws.flatten ++ last) := by
  obtain ⟨hb, -, -⟩ := h.wordTable hv
  obtain ⟨-, hm, -, -⟩ := h.byteModel hb
  have hfirst := feedAll_lt hm (pre_lt hm (opA s)) first
  rw [wordCrcOf, crcOperand, h.foldBytes_tableStep hb (pre_lt hm _), bulkOf_alignReg h hv hfirst hlen,
    h.foldBytes_tableStep hb (feedAll_lt hm hfirst _), unalignReg_alignReg, ← feedAll_append, ← feedAll_append,
    ← List.append_assoc]
  rfl

/-- CRC_WORD's value is the CRC of the bytes read, whatever the alignment (R75, R197). -/
theorem bufferValue_crcWord (e : Bool) :
    bufferValue s (.crcWord e) = crcFrom s.model (opA s) (readBytes s (opAddr s) (opLen s)) := by
  have hwords (b a n : Nat) : ∀ bs ∈ readWords s b a n, bs.length = b := by simp [readWords]
  have hrest : s.firstBytes + wordBytes s.wtblW8 * (s.restBytes / wordBytes s.wtblW8)
      + s.restBytes % wordBytes s.wtblW8 = opLen s := by
    rw [Nat.add_assoc, Nat.div_add_mod]
    exact Nat.add_sub_cancel' (prologueLength_le ..)
  rw [bufferValue, wordCrcOf_eq h hv _ _ (hwords _ _ _), flatten_readWords, ← readBytes_add, Nat.add_assoc (opAddr s),
    ← readBytes_add, hrest]

end

/-! ## The obligations -/

/-- Settles O34: BUILD_WORD's checks pass, and the rows below B of the built table are those of `entry_builtWordRow`. -/
theorem buildWordFillsTheTable : Obligations.BuildWordFillsTheTable := by
  rintro s _ h hb rfl hw
  obtain ⟨hv, hm, hw64, ht⟩ := h.byteModel hb
  refine ⟨_, exec_buildWord hv (Nat.le_min.2 ⟨hw64, hw⟩) hb, rfl, rfl, rfl, rfl, rfl, fun n hn k hk => ?_⟩
  refine wordEntry_of_rows hm (max_width_le_word hw) (wordBytes_le _) (fun n hn => ?_) hn hk
  rw [← ht]
  exact builtWordTable_getD _ _ _ _ hn (wordBytes_le _)

/-- Settles O38: CRC_WORD completes with its value, the CRC of the bytes read. -/
theorem crcWordComputesTheCrc : Obligations.CrcWordComputesTheCrc := by
  intro s h hchecks hreads
  have ⟨_, _, hv, _⟩ := hchecks
  rw [exec_of_answers hchecks hreads, bufferValue_crcWord h hv]

/-- Settles O55: in both cases there is no swap and `top` is 0, and row 0 is table_byte placed. -/
theorem wordTableRowZeroIsTheByteTable : Obligations.WordTableRowZeroIsTheByteTable := by
  intro s h hv hcase
  have hpos := wordBytes_pos s.wtblW8
  have hsame : s.wtblLittle = s.model.ref := by
    rcases hcase with ⟨href, hlittle⟩ | ⟨href, hlittle, -⟩ <;> rw [href, hlittle]
  have htop : laneTop s.model (wordBytes s.wtblW8) = 0 := by
    unfold laneTop
    rcases hcase with ⟨href, -⟩ | ⟨href, -, hw⟩
    · rw [if_pos href]
    · rw [href, if_neg Bool.false_ne_true]
      omega
  have hplace (q : Nat) : place s.model (wordBytes s.wtblW8) s.wtblLittle q = q := by
    rw [place_of_eq hsame, htop, Nat.shiftLeft_zero]
  refine ⟨fun k hk => ?_, hplace⟩
  rw [wordEntry, (h.wordTable hv).content 0 hpos, builtWordRow, entry_map_range _ hk, wordTableEntry, hplace,
    applyTimes, entry, BitVec.ofNat_toNat, BitVec.setWidth_eq]

/-- Settles O56: one step advances the placed register over the word's bytes, and unplace undoes place. -/
theorem wordStepAdvancesOverAWord : Obligations.WordStepAdvancesOverAWord := by
  intro m b draw little hm _ hb hw r hr bs hlen
  have hb8 : b ≤ 8 := by omega
  have hmax : max m.w 8 ≤ 8 * b := by omega
  have hstep := wordStep_placedReg hm hmax hb8 (fun n hn => builtWordTable_getD m _ little draw hn hb8) hr hlen
  rw [← placedReg, hstep, unplace_placedReg hmax little (feedAll_lt hm hr bs)]

end Sys2Proof.Machine
end

section
/-! # Multiplication modulo p (O42, O57)

Multiplication by x distributes over XOR, and the powers of x below w are the single bits of a register, so that a
register is the XOR of the powers of x at its coefficients (`xorBelow_mulTerm_one`). multmodp is the XOR of b·x^i over
the coefficients of its first factor. So a·x^n is a after n zero-input steps, for every n, and expanding both factors
into powers of x gives that multmodp is commutative (R210 to R213). -/

namespace Sys2Proof.Machine

/-! ## Functions that distribute over XOR -/

/-- `f` distributes over XOR. -/
def XorLinear (f : Nat → Nat) : Prop := ∀ a b, f (a ^^^ b) = f a ^^^ f b

section
variable {f : Nat → Nat} (hf : XorLinear f)
include hf

theorem XorLinear.map_zero : f 0 = 0 := by
  have h := hf 0 0
  rwa [Nat.xor_self, Nat.xor_self] at h

theorem XorLinear.map_xorBelow (g : Nat → Nat) (n : Nat) : f (xorBelow g n) = xorBelow (fun i => f (g i)) n := by
  induction n with
  | zero => exact hf.map_zero
  | succ n ih => rw [xorBelow, hf, ih, xorBelow]

theorem XorLinear.applyTimes (n : Nat) : XorLinear (applyTimes f n) := by
  induction n with
  | zero => exact fun _ _ => rfl
  | succ n ih => exact fun a b => (congrArg _ (hf a b)).trans (ih (f a) (f b))

end

theorem xorBelow_xor (f g : Nat → Nat) (n : Nat) :
    xorBelow (fun i => f i ^^^ g i) n = xorBelow f n ^^^ xorBelow g n := by
  induction n with
  | zero => exact (Nat.xor_self 0).symm
  | succ n ih =>
    rw [xorBelow, xorBelow, xorBelow, ih]
    ac_rfl

theorem applyTimes_add (f : Nat → Nat) (i j x : Nat) : applyTimes f (i + j) x = applyTimes f i (applyTimes f j x) := by
  simp only [applyTimes_eq_iterate, Function.iterate_add_apply]

/-- Multiplication by x is linear (R211). -/
theorem mulX_linear (m : Model) : XorLinear (mulX m) := fun a b => stepBit_xor m a b false false

/-! ## multmodp as a sum -/

/-- The term of multmodp's round i: b·x^i, if a has the coefficient of x^i (R212). -/
def mulTerm (m : Model) (a b i : Nat) : Nat := if coefficient m a i then applyTimes (mulX m) i b else 0

theorem mulRounds_eq (m : Model) (a b n : Nat) :
    mulRounds m a b n = (xorBelow (mulTerm m a b) n, applyTimes (mulX m) n b) := by
  induction n with
  | zero => rfl
  | succ n ih =>
    simp only [mulRounds, ih, applyTimes_succ, xorBelow, mulTerm]
    split
    · rfl
    · rw [Nat.xor_zero]

/-- The product is the XOR of its terms (R212). -/
theorem multModP_eq (m : Model) (a b : Nat) :
    multModP m a b = xorBelow (mulTerm m (a &&& ones m.w) (b &&& ones m.w)) m.w := by rw [multModP, mulRounds_eq]

/-- A conditional XOR over the indices below n, as the loop that accumulates it. -/
theorem xorBelow_eq_foldl (c : Nat → Bool) (f : Nat → Nat) (n : Nat) :
    xorBelow (fun i => if c i then f i else 0) n =
      (List.range n).foldl (fun acc i => if c i then acc ^^^ f i else acc) 0 := by
  induction n with
  | zero => rfl
  | succ n ih =>
    rw [xorBelow, ih, List.range_succ, List.foldl_append]
    cases h : c n <;> simp [h]

theorem coefficient_eq (m : Model) (a i : Nat) :
    coefficient m a i = a.testBit (if m.ref then m.w - 1 - i else i) := by
  unfold coefficient bit
  split <;> rfl

theorem xorBelow_mulTerm_xor_left (m : Model) (a a' b n : Nat) :
    xorBelow (mulTerm m (a ^^^ a') b) n = xorBelow (mulTerm m a b) n ^^^ xorBelow (mulTerm m a' b) n := by
  refine (congrArg (xorBelow · n) (funext fun i => ?_)).trans (xorBelow_xor _ _ n)
  simp only [mulTerm, coefficient_eq, Nat.testBit_xor]
  cases a.testBit _ <;> cases a'.testBit _ <;> simp

theorem xorBelow_mulTerm_xor_right (m : Model) (a b b' n : Nat) :
    xorBelow (mulTerm m a (b ^^^ b')) n = xorBelow (mulTerm m a b) n ^^^ xorBelow (mulTerm m a b') n := by
  refine (congrArg (xorBelow · n) (funext fun i => ?_)).trans (xorBelow_xor _ _ n)
  unfold mulTerm
  split
  · exact (mulX_linear m).applyTimes i b b'
  · rfl

/-- multmodp is linear in its first factor (R213). -/
theorem multModP_xor_left (m : Model) (a a' b : Nat) :
    multModP m (a ^^^ a') b = multModP m a b ^^^ multModP m a' b := by
  simp only [multModP_eq, Nat.and_xor_distrib_right, xorBelow_mulTerm_xor_left]

/-- multmodp is linear in its second factor (R213). -/
theorem multModP_linear (m : Model) (a : Nat) : XorLinear (multModP m a) := fun b b' => by
  simp only [multModP_eq, Nat.and_xor_distrib_right, xorBelow_mulTerm_xor_right]

/-! ## Powers of x -/

theorem applyTimes_polyPower (m : Model) (i j : Nat) :
    applyTimes (mulX m) i (polyPower m j) = polyPower m (i + j) := (applyTimes_add _ i j _).symm

theorem polyPower_succ (m : Model) (n : Nat) : polyPower m (n + 1) = mulX m (polyPower m n) := applyTimes_succ _ _ _

/-- A number cut to n bits is the XOR of its bits. -/
theorem xorBelow_bits (a n : Nat) : xorBelow (fun i => if bit a i then 2 ^ i else 0) n = a % 2 ^ n := by
  induction n with
  | zero => exact (Nat.mod_one a).symm
  | succ n ih =>
    rw [xorBelow, ih]
    refine Nat.eq_of_testBit_eq fun i => ?_
    simp only [Nat.testBit_xor, Nat.testBit_mod_two_pow, apply_ite (Nat.testBit · i), Nat.zero_testBit]
    by_cases hi : i = n
    · subst hi
      simp [bit]
    · simp [Nat.testBit_two_pow_of_ne (Ne.symm hi), show i < n + 1 ↔ i < n by omega]

/-- A bit that is not the lowest moves down and meets no polynomial (R160). -/
theorem stepRef_two_pow (m : Model) (e : Nat) : stepRef m (2 ^ (e + 1)) false = 2 ^ e := by
  have hlow : bit (2 ^ (e + 1)) 0 = false := by simp [bit]
  rw [stepRef, hlow, Bool.xor_self, if_neg Bool.false_ne_true, Nat.shiftRight_eq_div_pow, Nat.pow_succ,
    Nat.mul_div_cancel _ (by decide)]

/-- A bit that is not the highest moves up and meets no polynomial (R161). -/
theorem stepNorm_two_pow {m : Model} {i : Nat} (hi : i + 1 < m.w) : stepNorm m (2 ^ i) false = 2 ^ (i + 1) := by
  have htop : bit (2 ^ i) (m.w - 1) = false := Nat.testBit_two_pow_of_ne (by omega)
  rw [stepNorm, htop, Bool.xor_self, if_neg Bool.false_ne_true, Nat.shiftLeft_eq, ← Nat.pow_add,
    and_ones_of_lt (Nat.pow_lt_pow_right (by decide) hi)]

/-- A power of x below w is the single bit of its coefficient (R12, R210, R211). -/
theorem polyPower_of_lt {m : Model} {i : Nat} (hi : i < m.w) :
    polyPower m i = 2 ^ (if m.ref then m.w - 1 - i else i) := by
  induction i with
  | zero =>
    unfold polyPower applyTimes polyOne
    split <;> simp [Nat.one_shiftLeft]
  | succ i ih =>
    rw [polyPower_succ, ih (by omega), mulX, stepBit]
    cases m.ref with
    | true =>
      obtain ⟨e, he⟩ : ∃ e, m.w - 1 - i = e + 1 := ⟨m.w - 1 - (i + 1), by omega⟩
      simp only [if_true, he, stepRef_two_pow, show m.w - 1 - (i + 1) = e by omega]
    | false => exact stepNorm_two_pow hi

/-- A register is the XOR of the powers of x at its coefficients (R12). -/
theorem xorBelow_mulTerm_one {m : Model} {a : Nat} (ha : a < 2 ^ m.w) :
    xorBelow (mulTerm m a (polyOne m)) m.w = a := by
  have hterm {i : Nat} (hi : i < m.w) : mulTerm m a (polyOne m) i =
      if bit a (if m.ref then m.w - 1 - i else i) then 2 ^ (if m.ref then m.w - 1 - i else i) else 0 := by
    rw [mulTerm, coefficient_eq, ← polyPower_of_lt hi]
    rfl
  have hbits := (xorBelow_bits a m.w).trans (Nat.mod_eq_of_lt ha)
  rw [xorBelow_congr fun i hi => hterm hi]
  cases m.ref with
  | true => exact (xorBelow_reverse _ _).symm.trans hbits
  | false => exact hbits

section
variable {m : Model} (hm : m.Canonical)
include hm

theorem applyTimes_mulX_lt (n : Nat) {b : Nat} (hb : b < 2 ^ m.w) : applyTimes (mulX m) n b < 2 ^ m.w := by
  induction n generalizing b with
  | zero => exact hb
  | succ n ih => exact ih (mulX_lt hm hb)

theorem polyPower_lt (n : Nat) : polyPower m n < 2 ^ m.w := applyTimes_mulX_lt hm n (polyOne_lt hm)

/-- The product with x^n is n zero-input steps, for every n (R211, R212). -/
theorem multModP_polyPower (a n : Nat) :
    multModP m a (polyPower m n) = applyTimes (mulX m) n (a &&& ones m.w) := by
  have hterm (i : Nat) : mulTerm m (a &&& ones m.w) (polyPower m n) i =
      applyTimes (mulX m) n (mulTerm m (a &&& ones m.w) (polyOne m) i) := by
    unfold mulTerm
    split
    · rw [applyTimes_polyPower, Nat.add_comm]
      exact applyTimes_add _ n i _
    · exact ((mulX_linear m).applyTimes n).map_zero.symm
  rw [multModP_eq, and_ones_of_lt (polyPower_lt hm n), funext hterm,
    ← ((mulX_linear m).applyTimes n).map_xorBelow, xorBelow_mulTerm_one (and_ones_lt a m.w)]

/-- multmodp is commutative: both factors are sums of powers of x (R213). -/
theorem multModP_comm (a b : Nat) : multModP m a b = multModP m b a := by
  have hterm (j : Nat) : multModP m a (mulTerm m (b &&& ones m.w) (polyOne m) j) =
      mulTerm m (b &&& ones m.w) (a &&& ones m.w) j := by
    unfold mulTerm
    split
    · exact multModP_polyPower hm a j
    · exact (multModP_linear m a).map_zero
  calc multModP m a b
      = multModP m a (xorBelow (mulTerm m (b &&& ones m.w) (polyOne m)) m.w) := by
        rw [xorBelow_mulTerm_one (and_ones_lt b m.w), multModP_eq, multModP_eq,
          and_ones_of_lt (and_ones_lt b m.w)]
    _ = xorBelow (mulTerm m (b &&& ones m.w) (a &&& ones m.w)) m.w := by
        rw [(multModP_linear m a).map_xorBelow, funext hterm]
    _ = multModP m b a := (multModP_eq m b a).symm

/-- x^n times b is b after n zero-input steps (R211, R213, R224). -/
theorem polyPower_multModP (n b : Nat) : multModP m (polyPower m n) b = applyTimes (mulX m) n (b &&& ones m.w) :=
  (multModP_comm hm _ _).trans (multModP_polyPower hm b n)

/-- Powers of x multiply by adding their exponents. -/
theorem multModP_polyPower_polyPower (i j : Nat) :
    multModP m (polyPower m i) (polyPower m j) = polyPower m (i + j) := by
  rw [polyPower_multModP hm, and_ones_of_lt (polyPower_lt hm j), applyTimes_polyPower]

end

/-! ## The obligations -/

/-- MULMOD whose checks pass (R214). -/
theorem exec_mulmod {s : State} (hv : s.status.mvalid = true) (hw : s.model.w ≤ 64) :
    exec .mulmod s = finishValue s (multModP s.model (opA s) (opB s)) :=
  (needModel_of_mvalid _ hv).trans (needWidth_of_le _ hw)

/-- Settles O42: MULMOD's checks pass, and its rounds XOR the terms in the order of the sum. -/
theorem mulmodMultipliesModuloP : Obligations.MulmodMultipliesModuloP := by
  intro s hv hw
  simp only [exec_mulmod hv hw, multModP_eq, ← coefficient_eq]
  exact congrArg _ (xorBelow_eq_foldl _ _ _)

/-- Settles O57: the unit and x are powers of x, and the zero is the empty sum. -/
theorem multModPIsACommutativeProduct : Obligations.MultModPIsACommutativeProduct := by
  intro m hm _ a b c
  refine ⟨multModP_comm hm a b, multModP_xor_left m a b c, multModP_linear m c a b, polyPower_multModP hm 0 b,
    ?_, fun hb => ?_⟩
  · rw [multModP_comm hm, (multModP_linear m b).map_zero]
  · exact (polyPower_multModP hm 1 b).trans (congrArg (mulX m) (and_ones_of_lt hb))

end Sys2Proof.Machine
end

section
/-! # The combine table (O35)

The loop of R220 squares the power it appended last, so that its entries are x, x^2, x^4 and so on, each of them new
(`combFrom_holds`). Squaring takes every power to the next one, so where a power comes back, those after it come back
too, and every later power is an entry of the table (`polyPower_of_repeat`). -/

namespace Sys2Proof.Machine

/-! ## What the loop builds -/

/-- The powers x^(2^k) for k < c, as the table holds them (R220). -/
def combPowers (m : Model) (c : Nat) : List Nat := (List.range c).map fun k => polyPower m (2 ^ k)

@[simp] theorem combPowers_length (m : Model) (c : Nat) : (combPowers m c).length = c := by simp [combPowers]

theorem combPowers_succ (m : Model) (c : Nat) : combPowers m (c + 1) = combPowers m c ++ [polyPower m (2 ^ c)] := by
  simp [combPowers, List.range_succ]

theorem getElem?_combPowers {m : Model} {c k : Nat} (hk : k < c) :
    (combPowers m c)[k]? = some (polyPower m (2 ^ k)) := by
  simp [combPowers, hk]

theorem getElem?_of_indexOf_eq_some {v i : Nat} {es : List Nat} (h : indexOf v es = some i) : es[i]? = some v := by
  induction es generalizing i with
  | nil => cases h
  | cons e es ih =>
    rw [indexOf] at h
    split at h
    · next he =>
      cases h
      rw [he]
      rfl
    · obtain ⟨j, hj, rfl⟩ := Option.map_eq_some_iff.1 h
      exact ih hj

theorem not_mem_of_indexOf_eq_none {v : Nat} {es : List Nat} (h : indexOf v es = none) : v ∉ es := by
  induction es with
  | nil => exact List.not_mem_nil
  | cons e es ih =>
    rw [indexOf] at h
    split at h
    · cases h
    · next hne =>
      exact List.not_mem_cons_of_ne_of_not_mem (Ne.symm hne) (ih (Option.map_eq_none_iff.1 h))

/-- What a combine table of at most `limit` entries is: the powers x^(2^k), pairwise distinct, up to where they repeat,
or as many as there is room for (R220). -/
structure HoldsPowers (m : Model) (limit : Nat) (seq : List Nat × Option Nat) : Prop where
  nonempty : 1 ≤ seq.1.length
  entries : seq.1 = combPowers m seq.1.length
  distinct : seq.1.Nodup
  full : seq.2 = none → seq.1.length = limit
  back : ∀ b, seq.2 = some b → b < seq.1.length ∧ polyPower m (2 ^ seq.1.length) = polyPower m (2 ^ b)

section
variable {m : Model} (hm : m.Canonical)
include hm

/-- The square of x^(2^k) is x^(2^(k+1)). -/
theorem multModP_square (k : Nat) :
    multModP m (polyPower m (2 ^ k)) (polyPower m (2 ^ k)) = polyPower m (2 ^ (k + 1)) := by
  rw [multModP_polyPower_polyPower hm, Nat.pow_succ, Nat.mul_two]

/-- From the powers up to c, the loop goes on to the table of at most c + 1 + n entries. -/
theorem combFrom_holds (n c : Nat) (hdistinct : (combPowers m (c + 1)).Nodup) :
    HoldsPowers m (c + 1 + n) (combFrom m n (combPowers m (c + 1)) (polyPower m (2 ^ c))) := by
  induction n generalizing c with
  | zero =>
    rw [combFrom]
    exact ⟨by simp, by simp, hdistinct, fun _ => combPowers_length m _, fun _ => (nomatch ·)⟩
  | succ n ih =>
    rw [combFrom, multModP_square hm]
    split
    · next i hi =>
      have hlt := indexOf_lt_length hi
      rw [combPowers_length] at hlt
      have hrepeat : polyPower m (2 ^ i) = polyPower m (2 ^ (c + 1)) :=
        Option.some.inj ((getElem?_combPowers hlt).symm.trans (getElem?_of_indexOf_eq_some hi))
      refine ⟨by simp, by simp, hdistinct, (nomatch ·), fun b hb => ?_⟩
      cases hb
      rw [combPowers_length]
      exact ⟨hlt, hrepeat.symm⟩
    · next hi =>
      rw [← combPowers_succ, ← Nat.add_assoc, Nat.add_right_comm (c + 1)]
      refine ih (c + 1) ?_
      rw [combPowers_succ, ← List.concat_eq_append]
      exact hdistinct.concat (not_mem_of_indexOf_eq_none hi)

/-- The combine table holds powers, at most 131 of them (R220). -/
theorem combSequence_holds : HoldsPowers m 131 (combSequence m) := combFrom_holds hm 130 0 (List.nodup_singleton _)

/-! ## The powers after a repeat -/

/-- The power of index b + d is the power of index b squared d times. -/
theorem iterate_square (b d : Nat) :
    (fun v => multModP m v v)^[d] (polyPower m (2 ^ b)) = polyPower m (2 ^ (b + d)) := by
  induction d with
  | zero => rfl
  | succ d ih => rw [Function.iterate_succ_apply', ih, multModP_square hm, Nat.add_assoc]

/-- Where the power of index c is that of index b, every power from b on is one from b below c (R220). -/
theorem polyPower_of_repeat {b c : Nat} (hbc : b < c) (hrepeat : polyPower m (2 ^ c) = polyPower m (2 ^ b)) {k : Nat}
    (hk : b ≤ k) : polyPower m (2 ^ k) = polyPower m (2 ^ (b + (k - b) % (c - b))) := by
  have hperiodic : Function.IsPeriodicPt (fun v => multModP m v v) (c - b) (polyPower m (2 ^ b)) := by
    rw [Function.IsPeriodicPt, Function.IsFixedPt, iterate_square hm, Nat.add_sub_cancel' hbc.le, hrepeat]
  calc polyPower m (2 ^ k)
      = (fun v => multModP m v v)^[k - b] (polyPower m (2 ^ b)) := by
        rw [iterate_square hm, Nat.add_sub_cancel' hk]
    _ = polyPower m (2 ^ (b + (k - b) % (c - b))) := by rw [← hperiodic.iterate_mod_apply, iterate_square hm]

end

theorem HoldsPowers.getD {m : Model} {limit : Nat} {seq : List Nat × Option Nat} (h : HoldsPowers m limit seq)
    {k : Nat} (hk : k < seq.1.length) : seq.1.getD k 0 = polyPower m (2 ^ k) := by
  rw [h.entries, List.getD_eq_getElem?_getD, getElem?_combPowers hk]
  rfl

/-! ## The table of a state -/

section
variable {s : State} (h : s.CombTableBuilt) (hm : s.model.Canonical)
include h hm

/-- Entry k of a valid combine table is x^(2^k) (R220). -/
theorem State.CombTableBuilt.entry_eq {k : Nat} (hk : k < s.combCycle.toNat) :
    entry s.combTable k = polyPower s.model (2 ^ k) := by
  rw [h.cycle] at hk
  rw [h.content k hk, (combSequence_holds hm).getD hk]

theorem State.CombTableBuilt.cycle_bounds : 1 ≤ s.combCycle.toNat ∧ s.combCycle.toNat ≤ 131 := by
  rw [h.cycle]
  exact ⟨(combSequence_holds hm).nonempty, (combSequence_bounds hm).1⟩

/-- The entries of a valid combine table are pairwise distinct (R220). -/
theorem State.CombTableBuilt.entry_injective {j k : Nat} (hj : j < s.combCycle.toNat) (hk : k < s.combCycle.toNat)
    (heq : entry s.combTable j = entry s.combTable k) : j = k := by
  rw [h.cycle] at hj hk
  rw [h.content j hj, h.content k hk, List.getD_eq_getElem _ _ hj, List.getD_eq_getElem _ _ hk] at heq
  exact (combSequence_holds hm).distinct.getElem_inj_iff.1 heq

/-- A valid combine table is full, or BACK is the index that its powers come back to (R37, R220). -/
theorem State.CombTableBuilt.full_or_back :
    (s.combBack = 0xFF ∧ s.combCycle.toNat = 131) ∨
      (s.combBack.toNat < s.combCycle.toNat ∧
        polyPower s.model (2 ^ s.combCycle.toNat) = polyPower s.model (2 ^ s.combBack.toNat)) := by
  have hholds := combSequence_holds hm
  have hback := h.back
  rw [h.cycle]
  cases hb : (combSequence s.model).2 with
  | none =>
    rw [hb] at hback
    exact .inl ⟨BitVec.eq_of_toNat_eq hback, hholds.full hb⟩
  | some b =>
    rw [hb] at hback
    rw [hback]
    exact .inr (hholds.back b hb)

end

/-! ## The obligation -/

/-- BUILD_COMB whose checks pass (R221). -/
theorem exec_buildComb {s : State} (hv : s.status.mvalid = true) (hw : s.model.w ≤ 64) :
    exec .buildComb s = .next (s.holdCombTable.complete .ok) :=
  (needModel_of_mvalid _ hv).trans (needWidth_of_le _ hw)

/-- The table that BUILD_COMB leaves is the held model's (R37, R42, R220). -/
theorem holdCombTable_built {s : State} (hv : s.status.mvalid = true) (hm : s.model.Canonical) (hw : s.model.w ≤ 64) :
    s.holdCombTable.CombTableBuilt := by
  obtain ⟨hlen, -, hlt⟩ := combSequence_bounds hm
  have hentries : ∀ e ∈ (combSequence s.model).1, e < 2 ^ 64 := fun e he =>
    (hlt e he).trans_le (Nat.pow_le_pow_right (by decide) hw)
  exact
    { model := hv
      fits := hw
      cycle := (BitVec.toNat_ofNat _ _).trans (Nat.mod_eq_of_lt (hlen.trans_lt (by decide)))
      back := (BitVec.toNat_ofNat _ _).trans (Nat.mod_eq_of_lt (combBack_lt hm))
      content := fun _ hk => entry_builtCombTable hk hlen hentries }

/-- Settles O35: the table left is the held model's, and from a repeat on the powers stay among its entries. -/
theorem buildCombFillsTheTable : Obligations.BuildCombFillsTheTable := by
  intro s hv hm hw
  have hbuilt := holdCombTable_built hv hm hw
  obtain ⟨hpos, hmax⟩ := hbuilt.cycle_bounds hm
  refine ⟨_, _, exec_buildComb hv hw, rfl, rfl, rfl, rfl, hpos, hmax, fun _ => hbuilt.entry_eq hm,
    fun _ hj _ => hbuilt.entry_injective hm hj, ?_⟩
  refine (hbuilt.full_or_back hm).imp_right fun ⟨hlt, hrepeat⟩ => ⟨hlt, fun k hk => ?_⟩
  have hmod := Nat.mod_lt (k - s.holdCombTable.combBack.toNat) (Nat.sub_pos_of_lt hlt)
  exact (polyPower_of_repeat hm hlt hrepeat (hlt.le.trans hk)).trans
    (hbuilt.entry_eq hm (show _ < _ by omega)).symm

end Sys2Proof.Machine
end

section
/-! # The power walk (O43, O58)

The walk's index k stands for the index K that it would have without jumps: entry k is x^(2^K) (`StandsFor`). So each
round multiplies by the power that its bit of n asks for, and the exponents add up to n·2^k0 (R222 to R224). -/

namespace Sys2Proof.Machine

/-! ## The index -/

/-- The normalised index k stands for the index K: entry k is x^(2^K) (R222). -/
structure StandsFor (s : State) (K k : Nat) : Prop where
  le : k ≤ K
  entry : entry s.combTable k = polyPower s.model (2 ^ K)
  power : polyPower s.model (2 ^ k) = polyPower s.model (2 ^ K)

section
variable {s : State} (h : s.CombTableBuilt) (hm : s.model.Canonical)
include h hm

/-- With a valid table every index up to 130 is normalised to one that stands for it (R222, R259). -/
theorem State.CombTableBuilt.exists_normIndex {K : Nat} (hK : K ≤ 130) :
    ∃ k, normIndex s.combCycle.toNat s.combBack.toNat K = some k ∧ StandsFor s K k := by
  obtain ⟨-, hmax⟩ := h.cycle_bounds hm
  unfold normIndex
  split
  · next hlt => exact ⟨K, rfl, le_rfl, h.entry_eq hm hlt, rfl⟩
  next hge =>
  obtain ⟨-, hfull⟩ | ⟨hback, hrepeat⟩ := h.full_or_back hm
  · omega
  have hle := Nat.mod_le (K - s.combBack.toNat) (s.combCycle.toNat - s.combBack.toNat)
  have hlt := Nat.mod_lt (K - s.combBack.toNat) (Nat.sub_pos_of_lt hback)
  have hpower := (polyPower_of_repeat hm hback hrepeat (hback.le.trans (Nat.le_of_not_lt hge))).symm
  rw [if_neg (by omega)]
  exact ⟨_, rfl, by omega, (h.entry_eq hm (by omega)).trans hpower, hpower⟩

/-- The next index stands for the next one (R223). -/
theorem State.CombTableBuilt.exists_normIndex_succ {K k : Nat} (hk : StandsFor s K k) (hK : K + 1 ≤ 130) :
    ∃ k', normIndex s.combCycle.toNat s.combBack.toNat (k + 1) = some k' ∧ StandsFor s (K + 1) k' := by
  have hle := hk.le
  obtain ⟨k', hnorm, hk'⟩ := h.exists_normIndex hm (K := k + 1) (by omega)
  have hpower : polyPower s.model (2 ^ (k + 1)) = polyPower s.model (2 ^ (K + 1)) := by
    rw [← multModP_square hm, hk.power, multModP_square hm]
  exact ⟨k', hnorm, hk'.le.trans (Nat.succ_le_succ hle), hk'.entry.trans hpower, hk'.power.trans hpower⟩

/-! ## The walk -/

omit h in
/-- A round multiplies by the power of its bit of n (R223). -/
theorem walk_round {K k : Nat} (hk : StandsFor s K k) (n e : Nat) :
    (if bit n 0 then multModP s.model (entry s.combTable k) (polyPower s.model e) else polyPower s.model e) =
      polyPower s.model (e + n % 2 * 2 ^ K) := by
  rw [bit, Nat.testBit_zero]
  rcases Nat.mod_two_eq_zero_or_one n with hn | hn
  · simp [hn]
  · simp [hn, hk.entry, multModP_polyPower_polyPower hm, Nat.add_comm]

/-- The walk multiplies by the power x^(n·2^K) (R223, R224). -/
theorem State.CombTableBuilt.walk_eq {fuel n K k : Nat} (e : Nat) (hn : n < 2 ^ fuel) (hK : K + fuel ≤ 130)
    (hk : StandsFor s K k) :
    walk s.model s.combTable s.combCycle.toNat s.combBack.toNat fuel n k (polyPower s.model e) =
      some (polyPower s.model (e + n * 2 ^ K)) := by
  induction fuel generalizing n K k e with
  | zero =>
    obtain rfl : n = 0 := Nat.lt_one_iff.1 hn
    rw [walk, Nat.zero_mul, Nat.add_zero]
  | succ fuel ih =>
    have hhalf : n >>> 1 = n / 2 := Nat.shiftRight_eq_div_pow n 1
    have hsum : e + n % 2 * 2 ^ K + n / 2 * 2 ^ (K + 1) = e + n * 2 ^ K := by
      calc e + n % 2 * 2 ^ K + n / 2 * 2 ^ (K + 1) = e + (n % 2 + 2 * (n / 2)) * 2 ^ K := by ring
        _ = e + n * 2 ^ K := by rw [Nat.mod_add_div]
    rw [walk, walk_round hm hk, hhalf]
    split
    · next hlast => rw [← hsum, hlast, Nat.zero_mul, Nat.add_zero]
    · next hmore =>
      obtain ⟨k', hnorm, hk'⟩ := h.exists_normIndex_succ hm hk (by omega)
      rw [hnorm, ← hsum]
      exact ih _ (by omega) (by omega) hk'

/-- `xnmodp(n, k0)` is x^(n·2^k0) (R223, R224). -/
theorem State.CombTableBuilt.xnModP_eq {n k₀ : Nat} (hn : n < 2 ^ 64) (hk₀ : k₀ ≤ 66) :
    xnModP s n k₀ = some (polyPower s.model (n * 2 ^ k₀)) := by
  unfold xnModP
  split
  · next hzero =>
    rw [hzero, Nat.zero_mul]
    rfl
  · obtain ⟨k, hnorm, hk⟩ := h.exists_normIndex hm (K := k₀) (by omega)
    rw [hnorm, ← Nat.zero_add (n * _)]
    exact h.walk_eq hm 0 hn (by omega) hk

end

section
variable {s : State} (h : Inv s) (hc : s.status.cvalid = true)
include h hc

/-- What a valid combine table comes with (R43). -/
theorem Inv.combModel : s.status.mvalid = true ∧ s.model.Canonical ∧ s.model.w ≤ 64 ∧ s.CombTableBuilt :=
  have ht := h.combTable hc
  ⟨ht.model, h.model ht.model, ht.fits, ht⟩

/-- `xnmodp(n, 3)` is x^(8·n) (R224). -/
theorem xnModP_bytes {n : Nat} (hn : n < 2 ^ 64) : xnModP s n 3 = some (polyPower s.model (8 * n)) := by
  obtain ⟨-, hm, -, ht⟩ := h.combModel hc
  rw [ht.xnModP_eq hm hn (by decide), Nat.mul_comm]
  rfl

/-- `xnmodp(n, 0)` is x^n (R224). -/
theorem xnModP_bits {n : Nat} (hn : n < 2 ^ 64) : xnModP s n 0 = some (polyPower s.model n) := by
  obtain ⟨-, hm, -, ht⟩ := h.combModel hc
  rw [ht.xnModP_eq hm hn (by decide), Nat.pow_zero, Nat.mul_one]

/-- The checks of X8N and COMBINE pass with a valid combine table (R225, R228). -/
theorem Inv.combChecks (k : StepResult) :
    (needModel s <| needWidth s 64 <| needTable s s.status.cvalid k) = k := by
  obtain ⟨hv, -, hw, -⟩ := h.combModel hc
  rw [needModel_of_mvalid _ hv, needWidth_of_le _ hw, needTable_of_valid _ hc]

end

theorem opLen_lt (s : State) : opLen s < 2 ^ 64 := s.commandRegs.len.isLt

/-! ## The obligations -/

/-- Settles O58: the walk gives powers of x, and the product with x^n is n zero-input steps. -/
theorem powerWalkComputesPowers : Obligations.PowerWalkComputesPowers := by
  intro s h hc n hn
  obtain ⟨-, hm, -, -⟩ := h.combModel hc
  refine ⟨xnModP_bytes h hc hn, _, xnModP_bits h hc hn, fun r hr => ?_⟩
  rw [polyPower_multModP hm, and_ones_of_lt hr]

/-- Settles O43: X8N's checks pass, and its walk gives the power. -/
theorem x8nComputesThePower : Obligations.X8nComputesThePower := by
  intro s h hc
  rw [exec, execX8n, h.combChecks hc, xnModP_bytes h hc (opLen_lt s), finishWalk]

end Sys2Proof.Machine
end

section
/-! # ZEROS (O44, O59)

Either path of ZEROS comes to LEN zero-input steps: the serial one by definition, the table's because its factor is
x^LEN (R226, R227). -/

namespace Sys2Proof.Machine

/-! ## The register after LEN zero bits -/

/-- The serial path is taken (R226). -/
theorem zerosRegister_serial {s : State} (h : zerosByTable s = false) :
    zerosRegister s = some (applyTimes (mulX s.model) (opLen s) (pre s.model (opA s))) := by
  rw [zerosRegister, h, if_neg Bool.false_ne_true, crcOperand]

/-- The path over the table gives what the serial one does (R227). -/
theorem zerosRegister_byTable {s : State} (h : Inv s) (hpath : zerosByTable s = true) :
    zerosRegister s = some (applyTimes (mulX s.model) (opLen s) (pre s.model (opA s))) := by
  have hc : s.status.cvalid = true := (Bool.and_eq_true_iff.1 hpath).2
  obtain ⟨-, hm, -, -⟩ := h.combModel hc
  rw [zerosRegister, if_pos hpath, xnModP_bits h hc (opLen_lt s), Option.map_some, polyPower_multModP hm, crcOperand,
    and_ones_of_lt (pre_lt hm _)]

/-- ZEROS with a model held completes with `post` of its register (R226). -/
theorem exec_zeros {s : State} (hv : s.status.mvalid = true) {r : Nat} (hr : zerosRegister s = some r) :
    exec .zeros s = finishValue s (post s.model r) := by
  rw [exec, execZeros, needModel_of_mvalid _ hv, hr]
  rfl

/-- Settles O44: both paths leave the register after LEN zero bits. -/
theorem zerosAppliesZeroBits : Obligations.ZerosAppliesZeroBits := by
  intro s h hv
  cases hpath : zerosByTable s with
  | false => exact exec_zeros hv (zerosRegister_serial hpath)
  | true => exact exec_zeros hv (zerosRegister_byTable h hpath)

/-! ## Zero bytes -/

/-- The feed of the zero byte is eight zero-input steps (R162). -/
theorem feed_zero_byte (m : Model) (r : Nat) : feed m r 0 = applyTimes (mulX m) 8 r := by
  have hbits (n : Nat) : feedBits m 0 n r = applyTimes (mulX m) n r := by
    induction n with
    | zero => rfl
    | succ n ih =>
      have hbit : fedBit m 0 n = false := by simp [fedBit, bit]
      rw [feedBits, ih, hbit, applyTimes_succ, mulX]
  exact hbits 8

/-- k zero bytes are 8·k zero-input steps (R162, R227). -/
theorem feedAll_replicate_zero (m : Model) (r k : Nat) :
    feedAll m r (List.replicate k 0) = applyTimes (mulX m) (8 * k) r := by
  induction k generalizing r with
  | zero => rfl
  | succ k ih =>
    rw [Nat.mul_succ, applyTimes_add, ← feed_zero_byte]
    exact ih (feed m r 0)

/-- Settles O59: with CVALID cleared ZEROS is serial, and its steps are those of zero bytes. -/
theorem zerosPathsAgree : Obligations.ZerosPathsAgree := by
  intro s t h hc ht
  obtain ⟨hv, hm, -, -⟩ := h.combModel hc
  rw [zerosAppliesZeroBits s h hv, finishValue_next] at ht
  subst ht
  refine ⟨?_, fun k hk => ?_⟩
  · exact exec_zeros (s := { s with status := { s.status with cvalid := false } }) hv
      (zerosRegister_serial (Bool.and_false _))
  · rw [hk, ← feedAll_replicate_zero]
    exact toNat_ofNat_wide hm.widthMax (post_lt hm (feedAll_lt hm (pre_lt hm _) _))

end Sys2Proof.Machine
end

section
/-! # COMBINE (O45, O60)

`pre` and `post` are linear up to the constants that they XOR in, so that in the difference of two CRCs of the same
bytes the constants cancel and what is left is the difference of the registers, advanced over zero bytes (R228,
R229). -/

namespace Sys2Proof.Machine

/-- COMBINE with a valid combine table completes with its value (R228). -/
theorem exec_combine {s : State} (h : Inv s) (hc : s.status.cvalid = true) :
    exec .combine s =
      finishValue s (combineValue s.model (opA s) (opB s) (polyPower s.model (8 * opLen s))) := by
  rw [exec, execCombine, h.combChecks hc, xnModP_bytes h hc (opLen_lt s), Option.map_some, finishWalk]

/-- Settles O45: COMBINE's value with the reversals of a rev model spelled out. -/
theorem combineComputes : Obligations.CombineComputes := by
  intro s h hc
  rw [exec_combine h hc, combineValue]
  unfold reverseRev
  cases s.model.rev <;> rfl

/-! ## Linearity of the pipeline -/

theorem xor_xor_xor_same (x y z : Nat) : (x ^^^ z) ^^^ (y ^^^ z) = x ^^^ y := by
  rw [Nat.xor_comm y, ← Nat.xor_assoc, Nat.xor_xor_cancel_right]

theorem reverseIf_xor (flag : Bool) (x y w : Nat) :
    reverseIf flag (x ^^^ y) w = reverseIf flag x w ^^^ reverseIf flag y w := by
  cases flag with
  | false => rfl
  | true =>
    refine Nat.eq_of_testBit_eq fun i => ?_
    simp only [reverseIf, if_true, Nat.testBit_xor, testBit_bitReverse_eq, Bool.and_xor_distrib_left]

theorem reverseRev_eq (m : Model) (r : Nat) : reverseRev m r = reverseIf m.rev r m.w := rfl

/-- The difference of two pipeline values is that of their registers, reversed for a rev model (R163). -/
theorem reverseRev_xor_of_lt {m : Model} {c c' : Nat} (hc : c < 2 ^ m.w) (hc' : c' < 2 ^ m.w) :
    reverseRev m (c ^^^ c') = pre m c ^^^ pre m c' := by
  rw [pre_eq, pre_eq, ← reverseIf_xor, and_ones_of_lt hc, and_ones_of_lt hc', reverseRev_eq]
  exact congrArg (reverseIf m.rev · m.w) (xor_xor_xor_same c c' _).symm

/-- The difference of two registers is that of their pipeline values, reversed for a rev model (R164). -/
theorem reverseRev_xor (m : Model) (r r' : Nat) : reverseRev m (r ^^^ r') = post m r ^^^ post m r' := by
  rw [post_eq, post_eq, reverseRev_eq, reverseIf_xor, xor_xor_xor_same]

/-- The difference of two registers, advanced over zero bytes, is that of the registers fed the same bytes (R229). -/
theorem applyTimes_mulX_xor_eq_feedAll (m : Model) (r r' : Nat) (bs : List Byte) :
    applyTimes (mulX m) (8 * bs.length) (r ^^^ r') = feedAll m r bs ^^^ feedAll m r' bs := by
  rw [feedAll_eq_zeros_xor m r, feedAll_eq_zeros_xor m r', feedAll_replicate_zero, feedAll_replicate_zero,
    (mulX_linear m).applyTimes, xor_xor_xor_same]

theorem crcFrom_lt {m : Model} (hm : m.Canonical) (c : Nat) (bs : List Byte) : crcFrom m c bs < 2 ^ m.w :=
  post_lt hm (feedAll_lt hm (pre_lt hm c) bs)

/-- COMBINE's value of the CRCs of two parts is the CRC of the whole (R229). -/
theorem combineValue_crcFrom {m : Model} (hm : m.Canonical) (b₁ b₂ : List Byte) :
    combineValue m (crcFrom m m.init.toNat b₁) (crcFrom m m.init.toNat b₂) (polyPower m (8 * b₂.length)) =
      crcFrom m m.init.toNat (b₁ ++ b₂) := by
  have hc₁ := crcFrom_lt hm m.init.toNat b₁
  have hdiff : pre m (crcFrom m m.init.toNat b₁) ^^^ pre m m.init.toNat < 2 ^ m.w :=
    Nat.xor_lt_two_pow (pre_lt hm _) (pre_lt hm _)
  calc combineValue m (crcFrom m m.init.toNat b₁) (crcFrom m m.init.toNat b₂) (polyPower m (8 * b₂.length))
      = reverseRev m (applyTimes (mulX m) (8 * b₂.length)
          (pre m (crcFrom m m.init.toNat b₁) ^^^ pre m m.init.toNat)) ^^^ crcFrom m m.init.toNat b₂ := by
        rw [combineValue, and_ones_of_lt hc₁, and_ones_of_lt (crcFrom_lt hm _ b₂), reverseRev_xor_of_lt hc₁ hm.initFits,
          polyPower_multModP hm, and_ones_of_lt hdiff]
    _ = (crcFrom m (crcFrom m m.init.toNat b₁) b₂ ^^^ crcFrom m m.init.toNat b₂) ^^^ crcFrom m m.init.toNat b₂ := by
        rw [applyTimes_mulX_xor_eq_feedAll, reverseRev_xor]
        rfl
    _ = crcFrom m m.init.toNat (b₁ ++ b₂) := by rw [Nat.xor_xor_cancel_right, crcFrom_append hm]

/-- Settles O60: the value COMBINE completes with, and CRC_BIT from M_INIT. -/
theorem combineLaw : Obligations.CombineLaw := by
  refine ⟨fun s b₁ b₂ h hc hA hB hlen => ?_, fun s hchecks hreads hinit => ?_⟩
  · obtain ⟨-, hm, -, -⟩ := h.combModel hc
    rw [exec_combine h hc, hA, hB, hlen, combineValue_crcFrom hm]
  · rw [crcBitComputesTheCrc s hchecks hreads, opA, hinit]

end Sys2Proof.Machine
end

section
/-! # TBLRD (O46)

The fields of AUX are digits of a number made of K, N and SEL, and a selector with a set bit outside them is malformed
(R240); what is left of TBLRD is the check of the selected table and of the index (R241). -/

namespace Sys2Proof.Machine

/-! ## The selector -/

/-- A field in which a bit is set is not 0. -/
theorem field_ne_zero_of_testBit {v lo len i : Nat} (h : v.testBit i = true) (hlo : lo ≤ i) (hhi : i < lo + len) :
    field v lo len ≠ 0 := by
  have hbit : (field v lo len).testBit (i - lo) = true := by
    rw [field, Nat.testBit_mod_two_pow, Nat.testBit_shiftRight, Nat.add_sub_cancel' hlo, h, Bool.and_true]
    exact decide_eq_true (by omega)
  intro hzero
  rw [hzero, Nat.zero_testBit] at hbit
  contradiction

theorem shiftRight_ne_zero_of_testBit {v lo i : Nat} (h : v.testBit i = true) (hlo : lo ≤ i) : v >>> lo ≠ 0 :=
  mt shiftRight_eq_zero_iff.1
    ((Nat.pow_le_pow_right Nat.two_pos hlo).trans (Nat.ge_two_pow_of_testBit h)).not_gt

/-- A bit of 15:11 or 63:18 makes the selector malformed (R240). -/
theorem selMalformed_of_testBit {aux i : Nat} (h : aux.testBit i = true) (hi : 11 ≤ i ∧ i ≤ 15 ∨ 18 ≤ i) :
    selMalformed aux = true := by
  rcases hi with ⟨hlo, hhi⟩ | hlo
  · have hne : field aux 11 5 ≠ 0 := field_ne_zero_of_testBit h hlo (by omega)
    simp [selMalformed, hne]
  · have hne : aux >>> 18 ≠ 0 := shiftRight_ne_zero_of_testBit h hlo
    simp [selMalformed, hne]

section
variable {k n sel : Nat} (hk : k < 256) (hn : n < 8)
include hk

theorem selK_digits : selK (k + 256 * n + 65536 * sel) = k := by
  simp only [selK, field, Nat.shiftRight_zero]
  omega

include hn

theorem selN_digits : selN (k + 256 * n + 65536 * sel) = n := by
  simp only [selN, field, Nat.shiftRight_eq_div_pow]
  omega

theorem selTable_digits (hsel : sel < 4) : selTable (k + 256 * n + 65536 * sel) = sel := by
  simp only [selTable, field, Nat.shiftRight_eq_div_pow]
  omega

/-- With no bit set outside K, N and SEL, what is left of R240 is SEL = 3 and a row without SEL = 1. -/
theorem selMalformed_digits (hsel : sel < 4) :
    selMalformed (k + 256 * n + 65536 * sel) = (sel == 3 || (n != 0 && sel != 1)) := by
  have hgap : field (k + 256 * n + 65536 * sel) 11 5 = 0 := by
    simp only [field, Nat.shiftRight_eq_div_pow]
    omega
  have hhigh : (k + 256 * n + 65536 * sel) >>> 18 = 0 := shiftRight_eq_zero_iff.2 (by omega)
  simp [selMalformed, hgap, hhigh, selN_digits hk hn, selTable_digits hk hn hsel]

end

/-! ## The command -/

section
variable {s : State} (hm : s.status.mvalid = true)
include hm

/-- TBLRD with a malformed selector completes with ARG, whatever tables are valid (R241, R253). -/
theorem exec_tblrd_of_malformed (h : selMalformed (opAux s) = true) : exec .tblrd s = .next (s.complete .arg) :=
  (needModel_of_mvalid _ hm).trans (needArg_next.2 (.inr ⟨by rw [h]; rfl, rfl⟩))

/-- TBLRD with a well-formed selector goes on to the table (R241). -/
theorem exec_tblrd_of_wellFormed (h : selMalformed (opAux s) = false) :
    exec .tblrd s = readTable s (selTable (opAux s)) (selN (opAux s)) (selK (opAux s)) :=
  (needModel_of_mvalid _ hm).trans (if_pos (by rw [h]; rfl))

/-- TBLRD on the digits of AUX: ARG for SEL = 3 and for a row without SEL = 1, else entry K of the table (R240,
R241). -/
theorem exec_tblrd_of_digits {k n sel : Nat} (hk : k < 256) (hn : n < 8) (hsel : sel < 4)
    (haux : opAux s = k + 256 * n + 65536 * sel) :
    exec .tblrd s =
      if sel = 3 ∨ (n ≠ 0 ∧ sel ≠ 1) then .next (s.complete .arg) else readTable s sel n k := by
  have hmal := selMalformed_digits hk hn hsel
  split
  next hbad => exact exec_tblrd_of_malformed hm (by simpa [haux, hmal] using hbad)
  next hgood =>
    rw [exec_tblrd_of_wellFormed hm (by simpa [haux, hmal] using hgood), haux, selTable_digits hk hn hsel,
      selN_digits hk hn, selK_digits hk]

end

/-- A table is read where it is valid and its index in range; NOTABLE is checked before ARG (R241, R253). -/
theorem needTable_needArg_eq (s : State) (flag : Bool) (p : Prop) [Decidable p] (k : StepResult) :
    (needTable s flag <| needArg s (decide p) k) =
      if flag then (if p then k else .next (s.complete .arg)) else .next (s.complete .noTable) := by
  simp only [needTable, needArg, raiseError, decide_eq_true_eq]

/-- Settles O46: a malformed selector is ARG; the others meet the check of their table, then that of the index. -/
theorem tblrdReadsTheSelectedEntry : Obligations.TblrdReadsTheSelectedEntry := by
  refine ⟨fun s hm ⟨i, hbit, hi⟩ => ?_, fun s k n sel hm hk hn hsel haux => ?_⟩
  · exact exec_tblrd_of_malformed hm (selMalformed_of_testBit hbit hi)
  · rw [exec_tblrd_of_digits hm hk hn hsel haux]
    refine ⟨?byteTable, ?wordTable, ?combTable, fun hbad => if_pos hbad⟩
    case byteTable =>
      rintro rfl rfl
      exact if_neg (by simp)
    case wordTable =>
      rintro rfl
      exact (if_neg (by simp)).trans (needTable_needArg_eq s _ _ _)
    case combTable =>
      rintro rfl rfl
      exact (if_neg (by simp)).trans (needTable_needArg_eq s _ _ _)

end Sys2Proof.Machine
end

section
/-! # Steps, completions and the interrupt line (O4, O14, O15, O22)

What one step does with the event it takes (R291), what a completion with an error leaves (R252), and what happens to
OVR and IRQ (R256, R257). A run of a word, legal or not, is an outcome of a command or the completion with ILLEGAL. -/

namespace Sys2Proof.Machine

/-! ## The event of a step -/

theorem step_of_event {s : State} {e : Event} (h : nextEvent s = e) :
    step s = applyEvent e { s with schedule := s.schedule.tail } := by
  rw [step, h]

theorem engineTurn_of_inflight {s : State} {c : Snapshot} (h : s.inflight = some c) :
    engineTurn s = runWord c.word s := by
  rw [engineTurn, h]

theorem engineTurn_of_idle {s : State} (h : s.inflight = none) : engineTurn s = .next s := by
  rw [engineTurn, h]

theorem runWord_of_ok {w : Word} {i : Instr} (h : decode w = .ok i) (s : State) : runWord w s = exec i s := by
  rw [runWord, h]

theorem runWord_of_error {w : Word} {e : DecodeError} (h : decode w = .error e) (s : State) :
    runWord w s = .next (s.complete .illegal) := by
  rw [runWord, h, raiseError]

theorem nextEvent_of_cons {s : State} {e : Event} {es : List Event} (h : s.schedule = e :: es) : nextEvent s = e := by
  rw [nextEvent, h, List.headD_cons]

theorem nextEvent_of_nil {s : State} (h : s.schedule = []) : nextEvent s = .complete := by
  rw [nextEvent, h, List.headD_nil]

/-- Settles O4: the step applies its event, and the engine's turn runs the word in flight. -/
theorem stepRunsTheDecodedCommand : Obligations.StepRunsTheDecodedCommand := by
  intro s s' hs'
  have hstep {e : Event} (he : nextEvent s = e) : step s = applyEvent e s' := hs' ▸ step_of_event he
  have hinflight : s'.inflight = s.inflight := by rw [hs']
  refine ⟨fun c i hc he hd => ?legal, fun c e hc he hd => ?illegal, fun hidle he => ?idle, fun _ _ _ he => hstep he,
    fun _ _ he => hstep he, fun _ _ he => hstep he, fun he => hstep he, fun _ _ => nextEvent_of_cons,
    nextEvent_of_nil⟩
  case legal => rw [hstep he, applyEvent, engineTurn_of_inflight (hinflight.trans hc), runWord_of_ok hd]
  case illegal => rw [hstep he, applyEvent, engineTurn_of_inflight (hinflight.trans hc), runWord_of_error hd]
  case idle => rw [hstep he, applyEvent, engineTurn_of_idle (hinflight.trans hidle)]

/-! ## The outcomes of a word -/

/-- A word that runs to its end is a command with its outcome, or an illegal word (R105, R255). -/
theorem runWord_next {w : Word} {s t : State} (h : runWord w s = .next t) :
    (∃ i, ExecOutcome s i t) ∨ t = s.complete .illegal := by
  cases hd : decode w with
  | ok i =>
    rw [runWord_of_ok hd] at h
    exact .inl ⟨i, exec_outcome h⟩
  | error e =>
    rw [runWord_of_error hd] at h
    cases h
    exact .inr rfl

/-- A command that ends with an error changes ERRADDR on BUS and the completion's fields, and nothing else (R252). -/
theorem ExecOutcome.error_frame {s t : State} {i : Instr} (h : ExecOutcome s i t) (herr : t.status.err ≠ .ok) :
    t = State.complete { s with errAddr := t.errAddr } t.status.err ∧
      (t.status.err ≠ .bus → t.errAddr = s.errAddr) := by
  cases h with
  | error => exact ⟨rfl, fun _ => rfl⟩
  | bus => exact ⟨rfl, absurd rfl⟩
  | value | nop | canon | buildByte | buildWord | buildComb => exact absurd rfl herr

/-- Settles O22: an outcome with an error code is an error or BUS, and an illegal word is an error. -/
theorem errorsChangeNothingElse : Obligations.ErrorsChangeNothingElse := by
  intro w s t h herr
  rcases runWord_next h with ⟨i, hout⟩ | rfl
  · exact hout.error_frame herr
  · exact ⟨rfl, fun _ => rfl⟩

/-! ## OVR -/

theorem writeReg_cmd_of_busy {s : State} (v : Word) (h : s.busy = true) :
    writeReg s .cmd v = { s with status := { s.status with ovr := true } } := if_pos h

/-- OVR stays 1 over the write of any register but STATUS with bit 3 set (R257). -/
theorem writeReg_ovr {s : State} (hovr : s.status.ovr = true) (r : Reg) (v : Word) :
    (writeReg s r v).status.ovr = true ∨ (r = .status ∧ v.getLsbD 3 = true) := by
  cases r with
  | status =>
    cases hbit : v.getLsbD 3 with
    | true => exact .inr ⟨rfl, rfl⟩
    | false => exact .inl (by rw [writeReg, Status.writeOneToClear, hovr, hbit]; rfl)
  | cmd =>
    cases hb : s.busy with
    | true => exact .inl (by rw [writeReg_cmd_of_busy v hb])
    | false => exact .inl (by rw [writeReg_cmd_of_idle v hb]; exact hovr)
  | _ => exact .inl hovr

/-- OVR stays 1 over a host write that is not a proper write of STATUS with bit 3 set (R71, R257). -/
theorem hostWrite_ovr {s : State} (hovr : s.status.ovr = true) (a n : Nat) (v : Word) :
    (hostWrite s a n v).status.ovr = true ∨
      (n = 8 ∧ accessedReg s.platform a n = some .status ∧ v.getLsbD 3 = true) := by
  unfold hostWrite
  split
  · split
    · next r hr =>
      refine (writeReg_ovr hovr r v).imp_right fun ⟨hstatus, hbit⟩ => ⟨?_, hstatus ▸ hr, hbit⟩
      by_contra hn
      rw [accessedReg_of_improper fun h => hn h.2.1] at hr
      cases hr
    · exact .inl hovr
  · exact .inl hovr

/-- No completion changes OVR (R257). -/
theorem ExecOutcome.ovr {s t : State} {i : Instr} (h : ExecOutcome s i t) : t.status.ovr = s.status.ovr := by
  cases h <;> rfl

theorem runWord_ovr {w : Word} {s t : State} (h : runWord w s = .next t) : t.status.ovr = s.status.ovr := by
  rcases runWord_next h with ⟨i, hout⟩ | rfl
  · exact hout.ovr
  · rfl

theorem engineTurn_ovr {s t : State} (h : engineTurn s = .next t) : t.status.ovr = s.status.ovr := by
  cases hc : s.inflight with
  | some c => exact runWord_ovr (engineTurn_of_inflight hc ▸ h)
  | none =>
    rw [engineTurn_of_idle hc] at h
    cases h
    rfl

/-- Settles O15: of the events only a host write of STATUS and a reset can clear OVR. -/
theorem overrunIsStickyAndDropsTheWrite : Obligations.OverrunIsStickyAndDropsTheWrite := by
  refine ⟨fun s v => writeReg_cmd_of_busy v, fun s t h hovr => ?_, fun _ _ => rfl, fun _ _ _ => runWord_ovr⟩
  rcases step_next h with ⟨a, n, v, he, rfl⟩ | ⟨a, n, -, rfl⟩ | ⟨-, hturn⟩ | ⟨a, b, -, rfl⟩ | ⟨he, -⟩
  · obtain hkeep | ⟨rfl, hr, hbit⟩ := hostWrite_ovr (s := { s with schedule := s.schedule.tail }) hovr a n v
    · exact .inl hkeep
    · exact .inr (.inr ⟨a, v, he, hr, hbit⟩)
  · obtain ⟨r, hr⟩ := hostRead_response { s with schedule := s.schedule.tail } a n
    rw [hr]
    exact .inl hovr
  · exact .inl ((engineTurn_ovr hturn).trans hovr)
  · exact .inl hovr
  · exact .inr (.inl he)

/-! ## IRQ -/

/-- DONE = 0 keeps the line low (R256). -/
theorem State.irq_of_not_done {s : State} (h : s.status.done = false) : s.irq = false := by
  rw [State.irq, h, Bool.and_false]

/-- Settles O14: IRQ is IE and DONE, and each event sets them as its rule says. -/
theorem interruptFollowsEnableAndDone : Obligations.InterruptFollowsEnableAndDone := by
  refine fun s => ⟨rfl, fun c => Bool.and_true _, fun v => rfl, fun v hbit => ?_, fun v hidle => ?_, fun o c => rfl⟩
  · exact State.irq_of_not_done (by simp [writeReg, Status.writeOneToClear, hbit])
  · rw [writeReg_cmd_of_idle v hidle]
    exact State.irq_of_not_done rfl

end Sys2Proof.Machine
end

section
/-! # Checks in their order (O27, O28)

A check that fails ends the command with its error, whatever stands after it (R251, R253, R254). -/

namespace Sys2Proof.Machine

/-! ## A check that fails -/

section
variable {s : State} (k : StepResult)

theorem needModel_of_not_mvalid (h : s.status.mvalid = false) : needModel s k = .next (s.complete .noModel) :=
  needModel_next.2 (.inr ⟨h, rfl⟩)

theorem needWidth_of_gt {limit : Nat} (h : limit < s.model.w) : needWidth s limit k = .next (s.complete .width) :=
  needWidth_next.2 (.inr ⟨Nat.not_le.2 h, rfl⟩)

theorem needTable_of_invalid {flag : Bool} (h : flag = false) : needTable s flag k = .next (s.complete .noTable) :=
  needTable_next.2 (.inr ⟨h, rfl⟩)

theorem needBuffer_of_gt (h : 2 ^ 64 < opAddr s + opLen s) : needBuffer s k = .next (s.complete .addr) :=
  needBuffer_next.2 (.inr ⟨Nat.not_le.2 h, rfl⟩)

end

/-- Settles O27: every other command begins with the check of MVALID. -/
theorem commandsNeedAModel : Obligations.CommandsNeedAModel := by
  intro i s hm hi
  cases i with
  | nop | canon | reverse => exact absurd (by decide) hi
  | _ => exact needModel_of_not_mvalid _ hm

/-! ## The checks behind MVALID -/

section
variable {s : State} (hm : s.status.mvalid = true) (k : StepResult)
include hm

/-- With a model held, one wider than the limit ends the command (R254). -/
theorem widthCheck_of_gt {limit : Nat} (hw : limit < s.model.w) :
    (needModel s <| needWidth s limit k) = .next (s.complete .width) := by
  rw [needModel_of_mvalid _ hm, needWidth_of_gt _ hw]

/-- With a model that fits, a table that is not valid ends the command (R254). -/
theorem tableCheck_of_invalid {limit : Nat} {flag : Bool} (hw : s.model.w ≤ limit) (hflag : flag = false) :
    (needModel s <| needWidth s limit <| needTable s flag k) = .next (s.complete .noTable) := by
  rw [needModel_of_mvalid _ hm, needWidth_of_le _ hw, needTable_of_invalid _ hflag]

/-- With the table valid, a buffer beyond the address space ends the command before any read (R78). -/
theorem bufferCheck_of_gt {limit : Nat} {flag : Bool} (hw : s.model.w ≤ limit) (hflag : flag = true)
    (hbuf : 2 ^ 64 < opAddr s + opLen s) :
    (needModel s <| needWidth s limit <| needTable s flag <| needBuffer s k) = .next (s.complete .addr) := by
  rw [needModel_of_mvalid _ hm, needWidth_of_le _ hw, needTable_of_valid _ hflag, needBuffer_of_gt _ hbuf]

end

/-- Settles O28: each clause is the first check that fails in the command's pseudocode. -/
theorem checksInOrderOfPrecedence : Obligations.ChecksInOrderOfPrecedence := by
  intro s hm
  refine ⟨fun i hw hi => ?wide, fun hw => ?word, fun e hw hb => tableCheck_of_invalid hm _ hw hb,
    fun hw hfits hb => tableCheck_of_invalid hm _ (Nat.le_min.2 ⟨hw, hfits⟩) hb,
    fun e hw hv => tableCheck_of_invalid hm _ hw hv,
    fun hw hc => ⟨tableCheck_of_invalid hm _ hw hc, tableCheck_of_invalid hm _ hw hc⟩,
    fun hbuf => ⟨?bit, fun hw hb => bufferCheck_of_gt hm _ hw hb hbuf,
      fun hw hv => bufferCheck_of_gt hm _ hw hv hbuf⟩⟩
  case wide =>
    cases i with
    | nop | canon | crcBit | crcRem | reverse | zeros | tblrd => exact absurd hi (by simp)
    | buildWord => exact widthCheck_of_gt hm _ ((Nat.min_le_left _ _).trans_lt hw)
    | _ => exact widthCheck_of_gt hm _ hw
  case word => exact widthCheck_of_gt hm _ ((Nat.min_le_right _ _).trans_lt hw)
  case bit => exact (needModel_of_mvalid _ hm).trans (needBuffer_of_gt _ hbuf)

end Sys2Proof.Machine
end

section
/-! # How every command ends (O7, O25, O26)

One pass over the pseudocode of the commands says both that a command completes unless it reads memory with read side
effects and which error codes it can complete with (`exec_endsIn`). Under the invariant the power walk stays inside the
table, so that COMBRANGE is not among them (R226, R259). -/

namespace Sys2Proof.Machine

/-! ## Ends of a command -/

/-- The outcome is a completion with one of the codes `errs`, or a refusal, and that only if `refuses`. -/
def EndsIn (refuses : Prop) (errs : List ErrCode) : StepResult → Prop
  | .next t => t.status.err ∈ errs
  | .fault _ => False
  | .refused _ => refuses

section
variable {s : State} {refuses : Prop} {errs : List ErrCode} {k : StepResult}

theorem EndsIn.err_mem {t : State} (h : EndsIn refuses errs k) (hk : k = .next t) : t.status.err ∈ errs := by
  rwa [hk] at h

theorem EndsIn.exists_next (h : EndsIn refuses errs k) (hno : ¬ refuses) : ∃ t, k = .next t := by
  cases k with
  | next t => exact ⟨t, rfl⟩
  | fault r => exact h.elim
  | refused r => exact absurd h hno

theorem finish_endsIn (hok : .ok ∈ errs := by decide) : EndsIn refuses errs (finish s) := hok

theorem finishValue_endsIn {v : Nat} (hok : .ok ∈ errs := by decide) : EndsIn refuses errs (finishValue s v) := hok

/-- A check ends the command with its code, or leaves the rest of the command to end it (R253). -/
theorem check_endsIn {c : Prop} [Decidable c] {code : ErrCode} (hk : c → EndsIn refuses errs k)
    (hcode : code ∈ errs := by decide) : EndsIn refuses errs (if c then k else raiseError s code) := by
  split
  · next hc => exact hk hc
  · exact hcode

theorem needModel_endsIn (hk : EndsIn refuses errs k) (hcode : .noModel ∈ errs := by decide) :
    EndsIn refuses errs (needModel s k) := check_endsIn (fun _ => hk) hcode

theorem needWidth_endsIn {limit : Nat} (hk : EndsIn refuses errs k) (hcode : .width ∈ errs := by decide) :
    EndsIn refuses errs (needWidth s limit k) := check_endsIn (fun _ => hk) hcode

theorem needTable_endsIn {flag : Bool} (hk : flag = true → EndsIn refuses errs k)
    (hcode : .noTable ∈ errs := by decide) : EndsIn refuses errs (needTable s flag k) := check_endsIn hk hcode

theorem needArg_endsIn {ok : Bool} (hk : EndsIn refuses errs k) (hcode : .arg ∈ errs := by decide) :
    EndsIn refuses errs (needArg s ok k) := check_endsIn (fun _ => hk) hcode

theorem needBuffer_endsIn (hk : EndsIn refuses errs k) (hcode : .addr ∈ errs := by decide) :
    EndsIn refuses errs (needBuffer s k) := check_endsIn (fun _ => hk) hcode

theorem finishWalk_endsIn {o : Option Nat} (hok : .ok ∈ errs := by decide) (hcode : .combRange ∈ errs := by decide) :
    EndsIn refuses errs (finishWalk s o) := by
  cases o with
  | none => exact hcode
  | some v => exact hok

end

/-! ## Reads of memory without side effects -/

theorem memRead_ne_device {s : State} (h : s.platform.device = []) (a n : Nat) : memRead s a n ≠ .device := by
  have hno : s.platform.touchesDevice a n = false := by rw [Platform.touchesDevice, h, List.any_nil]
  unfold memRead
  split <;> simp [hno]

theorem makeReads_ne_device {s : State} (h : s.platform.device = []) (l : List (Nat × Nat)) :
    makeReads s l ≠ .device := by
  induction l with
  | nil => exact nofun
  | cons r l ih =>
    rw [makeReads]
    cases hr : memRead s r.1 r.2 with
    | value bs => exact ih
    | busError a => exact nofun
    | device => exact absurd hr (memRead_ne_device h _ _)

/-- The end of a buffer command is a refusal only where memory with read side effects is marked (R79, U12; log 7). -/
theorem finishRun_bufferRun_endsIn {s : State} {errs : List ErrCode} {i : Instr} (hok : .ok ∈ errs := by decide)
    (hbus : .bus ∈ errs := by decide) : EndsIn (s.platform.device ≠ []) errs (finishRun s (bufferRun s i)) := by
  unfold bufferRun
  cases hr : makeReads s (readsOf s i) with
  | value v => exact hok
  | busError a => exact hbus
  | device => exact fun hno => makeReads_ne_device hno _ hr

/-! ## The error codes of the commands -/

/-- The codes a command can complete with: those of the checks in its pseudocode and of its end (R251, R254). -/
def errorsOf : Instr → List ErrCode
  | .nop => [.ok]
  | .canon => [.ok, .model]
  | .buildByte | .buildComb | .mulmod => [.ok, .noModel, .width]
  | .buildWord | .crcByte true | .crcWord true => [.ok, .noModel, .width, .noTable]
  | .crcBit true => [.ok, .noModel]
  | .crcBit false => [.ok, .noModel, .addr, .bus]
  | .crcByte false | .crcWord false => [.ok, .noModel, .width, .noTable, .addr, .bus]
  | .crcRem => [.ok, .noModel, .arg]
  | .reverse => [.ok, .arg]
  | .x8n | .combine => [.ok, .noModel, .width, .noTable, .combRange]
  | .zeros => [.ok, .noModel, .combRange]
  | .tblrd => [.ok, .noModel, .noTable, .arg]

/-- The end of TBLRD behind its check of the selector (R241). -/
theorem readTable_endsIn (s : State) (sel n k : Nat) {refuses : Prop} :
    EndsIn refuses (errorsOf .tblrd) (readTable s sel n k) := by
  unfold readTable
  split
  · exact needTable_endsIn fun _ => finishValue_endsIn
  · exact needTable_endsIn fun _ => needArg_endsIn finishValue_endsIn
  · exact needTable_endsIn fun _ => needArg_endsIn finishValue_endsIn

/-- Every command ends with one of its codes, or with the refusal of a read with side effects. -/
theorem exec_endsIn (i : Instr) (s : State) : EndsIn (s.platform.device ≠ []) (errorsOf i) (exec i s) := by
  cases i with
  | nop => exact finish_endsIn
  | canon => exact check_endsIn fun _ => finish_endsIn
  | buildByte => exact needModel_endsIn <| needWidth_endsIn finish_endsIn
  | buildWord => exact needModel_endsIn <| needWidth_endsIn <| needTable_endsIn fun _ => finish_endsIn
  | buildComb => exact needModel_endsIn <| needWidth_endsIn finish_endsIn
  | crcBit e =>
    rw [exec, execCrcBit, bitCrc_eq]
    cases e with
    | true => exact needModel_endsIn finishValue_endsIn
    | false => exact needModel_endsIn <| needBuffer_endsIn finishRun_bufferRun_endsIn
  | crcByte e =>
    rw [exec, execCrcByte, byteCrc_eq]
    cases e with
    | true => exact needModel_endsIn <| needWidth_endsIn <| needTable_endsIn fun _ => finishValue_endsIn
    | false =>
      exact needModel_endsIn <| needWidth_endsIn <| needTable_endsIn fun _ =>
        needBuffer_endsIn finishRun_bufferRun_endsIn
  | crcWord e =>
    rw [exec, execCrcWord, wordCrc_eq]
    cases e with
    | true => exact needModel_endsIn <| needWidth_endsIn <| needTable_endsIn fun _ => finishValue_endsIn
    | false =>
      exact needModel_endsIn <| needWidth_endsIn <| needTable_endsIn fun _ =>
        needBuffer_endsIn finishRun_bufferRun_endsIn
  | crcRem => exact needModel_endsIn <| needArg_endsIn finishValue_endsIn
  | reverse => exact needArg_endsIn finishValue_endsIn
  | mulmod => exact needModel_endsIn <| needWidth_endsIn finishValue_endsIn
  | x8n => exact needModel_endsIn <| needWidth_endsIn <| needTable_endsIn fun _ => finishWalk_endsIn
  | zeros => exact needModel_endsIn finishWalk_endsIn
  | combine => exact needModel_endsIn <| needWidth_endsIn <| needTable_endsIn fun _ => finishWalk_endsIn
  | tblrd => exact needModel_endsIn <| needArg_endsIn <| readTable_endsIn s _ _ _

/-! ## Every step proceeds -/

/-- Without memory with read side effects the engine's turn answers a next state (R250). -/
theorem engineTurn_exists_next {s : State} (h : s.platform.device = []) : ∃ t, engineTurn s = .next t := by
  cases hc : s.inflight with
  | none => exact ⟨s, engineTurn_of_idle hc⟩
  | some c =>
    rw [engineTurn_of_inflight hc]
    cases hd : decode c.word with
    | error e => exact ⟨_, runWord_of_error hd s⟩
    | ok i =>
      rw [runWord_of_ok hd]
      exact (exec_endsIn i s).exists_next (not_not_intro h)

theorem step_exists_next {s : State} (h : s.platform.device = []) : ∃ t, step s = .next t := by
  unfold step
  cases nextEvent s with
  | complete => exact engineTurn_exists_next (s := { s with schedule := s.schedule.tail }) h
  | hostWrite | hostRead | memWrite | reset => exact ⟨_, rfl⟩

theorem ExecOutcome.platform {s t : State} {i : Instr} (h : ExecOutcome s i t) : t.platform = s.platform := by
  cases h <;> rfl

/-- No event changes what the platform fixes (R9; log 3). -/
theorem step_platform {s t : State} (h : step s = .next t) : t.platform = s.platform := by
  rcases step_next h with ⟨a, n, v, -, rfl⟩ | ⟨a, n, -, rfl⟩ | ⟨-, hturn⟩ | ⟨a, b, -, rfl⟩ | ⟨-, rfl⟩
  · rw [hostWrite_frame]
  · obtain ⟨r, hr⟩ := hostRead_response { s with schedule := s.schedule.tail } a n
    rw [hr]
  · rcases engineTurn_next hturn with ⟨c, i, -, -, hexec⟩ | ⟨c, e, -, -, rfl⟩ | ⟨-, rfl⟩
    · exact (exec_outcome hexec).platform
    · rfl
    · rfl
  · rfl
  · rfl

/-- Settles O7: only the reads of a command could be refused, and no outcome holds another platform. -/
theorem everyStepProceeds : Obligations.EveryStepProceeds := by
  intro s h
  obtain ⟨t, ht⟩ := step_exists_next h
  exact ⟨t, ht, step_platform ht⟩

/-! ## Error codes under the invariant -/

/-- X8N and COMBINE, with a power wherever the table is valid, have no other error than those of their checks (R225,
R228). -/
theorem walkChecks_endsIn {s : State} {refuses : Prop} {o : Option Nat}
    (ho : s.status.cvalid = true → ∃ v, o = some v) :
    EndsIn refuses [.ok, .noModel, .width, .noTable]
      (needModel s <| needWidth s 64 <| needTable s s.status.cvalid <| finishWalk s o) :=
  needModel_endsIn <| needWidth_endsIn <| needTable_endsIn fun hc => by
    obtain ⟨v, rfl⟩ := ho hc
    exact finishValue_endsIn

section
variable {s : State} (h : Inv s)
include h

/-- ZEROS ends without an error or with NOMODEL: on either path the register is defined (R226). -/
theorem Inv.exec_zeros_err {t : State} (ht : exec .zeros s = .next t) :
    t.status.err ∈ ([.ok, .noModel] : List ErrCode) := by
  cases hv : s.status.mvalid with
  | true =>
    rw [zerosAppliesZeroBits s h hv] at ht
    rw [finishValue_next.1 ht]
    exact List.mem_cons_self
  | false =>
    rw [commandsNeedAModel .zeros s hv (by decide)] at ht
    cases ht
    exact List.mem_cons_of_mem _ List.mem_cons_self

/-- The codes a command completes with in a state that meets the invariant do not contain COMBRANGE (R259). -/
theorem Inv.exists_errors_without_combRange {i : Instr} {t : State} (ht : exec i s = .next t) :
    ∃ errs : List ErrCode, .combRange ∉ errs ∧ t.status.err ∈ errs := by
  cases i with
  | zeros => exact ⟨_, by decide, h.exec_zeros_err ht⟩
  | x8n =>
    have hends := walkChecks_endsIn (refuses := False) fun hc => ⟨_, xnModP_bytes h hc (opLen_lt s)⟩
    exact ⟨_, by decide, hends.err_mem ht⟩
  | combine =>
    have hends := walkChecks_endsIn (refuses := False) fun hc =>
      ⟨_, congrArg (Option.map (combineValue s.model (opA s) (opB s))) (xnModP_bytes h hc (opLen_lt s))⟩
    exact ⟨_, by decide, hends.err_mem ht⟩
  | crcBit e | crcByte e | crcWord e =>
    exact ⟨errorsOf _, by cases e <;> decide, (exec_endsIn _ s).err_mem ht⟩
  | _ => exact ⟨errorsOf _, by decide, (exec_endsIn _ s).err_mem ht⟩

/-- In a valid combine table without a cycle CYCLE is 131 (R220, R37). -/
theorem Inv.combCycle_of_no_back (hc : s.status.cvalid = true) (hback : s.combBack = 0xFF) : s.combCycle = 131 := by
  obtain ⟨-, hm, -, ht⟩ := h.combModel hc
  rcases ht.full_or_back hm with ⟨-, hfull⟩ | ⟨hlt, -⟩
  · exact BitVec.eq_of_toNat_eq hfull
  · have hbound := (ht.cycle_bounds hm).2
    rw [hback] at hlt
    exact absurd (hlt.trans_le hbound) (by decide)

end

/-- Settles O25: the codes of the checks and ends, and ZEROS on its two paths. -/
theorem errorCodesOfEachCommand : Obligations.ErrorCodesOfEachCommand := by
  refine ⟨fun i s t h => ?_, fun s t hinv h => hinv.exec_zeros_err h⟩
  have hmem := (exec_endsIn i s).err_mem h
  cases i with
  | crcBit e | crcByte e | crcWord e => cases e <;> exact hmem
  | _ => exact hmem

/-- Settles O26: the walks of X8N, ZEROS and COMBINE stay inside a valid table, and the other commands do not walk. -/
theorem noCommandEndsWithCombRange : Obligations.NoCommandEndsWithCombRange := by
  refine fun s h => ⟨h.combCycle_of_no_back, fun i t ht herr => ?_⟩
  obtain ⟨errs, hno, hmem⟩ := h.exists_errors_without_combRange ht
  exact hno (herr ▸ hmem)

end Sys2Proof.Machine
end

section
/-! # Reset, and the command in flight (O6, O9, O17)

The reset state is itself a block that was reset, so one lemma about `resetBlock` serves both (R280, R281). A command
in flight stays there, or has completed with DONE = 1, over every event that neither starts, abandons nor clears a
command, and it has completed at the latest when the engine has the turn after the last of them (R255, R292). -/

namespace Sys2Proof.Machine

/-! ## Reset -/

/-- The state after reset is a reset of a block that has drawn no free value yet (log 5). -/
theorem State.reset_eq_resetBlock : State.reset = resetBlock { State.reset with draws := 0 } := rfl

/-- No register of the window shows what a reset leaves or draws anew: memory, tables, and the agents around the block
(R20; log 5, log 12). -/
theorem readReg_resetBlock (s : State) (r : Reg) : readReg (resetBlock s) r = readReg State.reset r := by
  cases r <;> rfl

theorem readReg_reset {r : Reg} (hid : r ≠ .id) (hparam : r ≠ .param) : readReg State.reset r = 0 := by
  cases r with
  | id => exact absurd rfl hid
  | param => exact absurd rfl hparam
  | _ => rfl

/-- Settles O9: the reset state is a block reset over empty memory. -/
theorem resetMeetsInvariant : Obligations.ResetMeetsInvariant :=
  ⟨State.reset_eq_resetBlock ▸ resetBlock_inv ⟨.nil, nofun⟩, fun _ => resetBlock_inv⟩

/-- Settles O17: every register reads as at the reset state, whose fields are 0. -/
theorem resetClearsEveryRegister : Obligations.ResetClearsEveryRegister := by
  intro s t ht
  obtain ⟨u, rfl⟩ : ∃ u, t = resetBlock u := ht.elim (fun h => ⟨_, h.trans State.reset_eq_resetBlock⟩) (⟨s, ·⟩)
  exact ⟨rfl, rfl, fun r hid hparam => (readReg_resetBlock u r).trans (readReg_reset hid hparam), rfl,
    State.irq_of_not_done rfl⟩

/-! ## The engine's turn ends the command in flight -/

/-- A command is in flight, or the last one has completed and its DONE stands (R255). -/
def State.BusyOrDone (s : State) : Prop := s.busy = true ∨ s.status.done = true

/-- Every outcome of a command is a completion, and it leaves the events to come (R255). -/
theorem ExecOutcome.eq_complete {s t : State} {i : Instr} (h : ExecOutcome s i t) :
    ∃ (u : State) (c : ErrCode), t = u.complete c ∧ u.schedule = s.schedule := by
  cases h <;> exact ⟨_, _, rfl, rfl⟩

/-- After the engine's turn no command is in flight, and DONE is 1 where one was (R255; log 9). -/
theorem engineTurn_completes {s t : State} (h : engineTurn s = .next t) (hs : s.BusyOrDone) :
    t.busy = false ∧ t.status.done = true ∧ t.schedule = s.schedule := by
  rcases engineTurn_next h with ⟨c, i, -, -, hexec⟩ | ⟨c, e, -, -, rfl⟩ | ⟨hidle, rfl⟩
  · obtain ⟨u, code, rfl, hsched⟩ := (exec_outcome hexec).eq_complete
    exact ⟨rfl, rfl, hsched⟩
  · exact ⟨rfl, rfl, rfl⟩
  · have hb : t.busy = false := by rw [State.busy, hidle, Option.isSome_none]
    exact ⟨hb, hs.resolve_left (by simp [hb]), rfl⟩

/-! ## Every delay ends -/

/-- An event that may delay the command in flight but neither starts nor abandons one nor clears DONE: the engine's
turn, a host read, a memory write. -/
def Event.Delays (e : Event) : Prop :=
  e = .complete ∨ (∃ a n, e = .hostRead a n) ∨ (∃ a b, e = .memWrite a b)

/-- Over such an event a command stays in flight or completes, and the schedule moves on by one. -/
theorem step_of_delay {s t : State} (h : step s = .next t) (he : (nextEvent s).Delays) (hs : s.BusyOrDone) :
    t.schedule = s.schedule.tail ∧ t.BusyOrDone := by
  rcases step_next h with ⟨a, n, v, hw, -⟩ | ⟨a, n, -, rfl⟩ | ⟨-, hturn⟩ | ⟨a, b, -, rfl⟩ | ⟨hr, -⟩
  · simp [Event.Delays, hw] at he
  · obtain ⟨r, hr⟩ := hostRead_response { s with schedule := s.schedule.tail } a n
    rw [hr]
    exact ⟨rfl, hs⟩
  · obtain ⟨-, hdone, hsched⟩ := engineTurn_completes hturn hs
    exact ⟨hsched, .inr hdone⟩
  · exact ⟨rfl, hs⟩
  · simp [Event.Delays, hr] at he

/-- A run whose first step answers a next state goes on from there. -/
theorem run_succ_of_step {M : Host.Core} {s t : M.State} (h : M.step s = .next t) (k : Nat) :
    M.run (k + 1) s = M.run k t := by
  rw [Host.Core.run, h]

/-- By induction on the schedule: each of its events leaves the rest of it, and after the last the engine has the
turn. -/
theorem run_schedule_completes (es : List Event) {s : State} (hsched : s.schedule = es)
    (hdev : s.platform.device = []) (hes : ∀ e ∈ es, e.Delays) (hs : s.BusyOrDone) :
    ∃ t : State, Host.Core.run Sys2Proof.core (es.length + 1) s = .next t ∧ t.busy = false ∧ t.status.done = true := by
  induction es generalizing s with
  | nil =>
    obtain ⟨t, ht⟩ := step_exists_next hdev
    have hturn := step_of_event (nextEvent_of_nil hsched) ▸ ht
    obtain ⟨hbusy, hdone, -⟩ := engineTurn_completes hturn hs
    exact ⟨t, run_succ_of_step (M := Sys2Proof.core) ht 0, hbusy, hdone⟩
  | cons e es ih =>
    obtain ⟨u, hu⟩ := step_exists_next hdev
    have he : (nextEvent s).Delays := nextEvent_of_cons hsched ▸ hes e List.mem_cons_self
    obtain ⟨husched, hubusy⟩ := step_of_delay hu he hs
    rw [List.length_cons, run_succ_of_step (M := Sys2Proof.core) hu]
    exact ih (by rw [husched, hsched, List.tail_cons]) (step_platform hu ▸ hdev)
      (fun e h => hes e (List.mem_cons_of_mem _ h)) hubusy

/-- Settles O6: the command in flight survives or completes over each event of the schedule. -/
theorem commandCompletesForEveryDelay : Obligations.CommandCompletesForEveryDelay :=
  fun s hdev hbusy hes => run_schedule_completes s.schedule rfl hdev hes (.inl hbusy)

end Sys2Proof.Machine
end
